-- ==== Sys2Proof/Word.lean ====
section
/-! DEFINITION. The widths the spec fixes (R11): host registers and command words of 32 bits, bytes of the
source and of the row buffer, and the packed colour of 16 bits. -/

namespace Sys2Proof

/-- A host register, or a command word: 32 bits (R11, R22, R90). -/
abbrev Word := BitVec 32

/-- One byte of the source, and one 8-bit unsigned colour channel (R11, R60). -/
abbrev Byte := BitVec 8

/-- The packed colour, 5-6-5 with its two bytes exchanged (R100): the only colour form that leaves the block (R75). -/
abbrev Color16 := BitVec 16

end Sys2Proof
end

