-- ==== Sys2Proof/Config.lean ====
section
/-! DEFINITION. The implementation parameters of 00_scope.md R10, and the FREE values: choices the spec leaves to
an agent outside the block. A free value is a constant with no body, so nothing can be proved of which one it is. -/

namespace Sys2Proof

/-- The two legal values of P_CLRUSED_OFF (R10): the source's table says 42, the common layout 46 (conflict C4). -/
inductive ClrUsedOff where
  | at42
  | at46
deriving DecidableEq, Repr

/-- P_CLRUSED_OFF as a file offset (R10). -/
def ClrUsedOff.fileOffset : ClrUsedOff → Nat
  | .at42 => 42
  | .at46 => 46

/-- The implementation parameters of R10. "A model takes each as an argument": they stand in State, no step
changes them, and a statement about every state is a statement about every choice of them (assumption 2). -/
structure Params where
  /-- P_MAGIC, the signature byte at file offset 0. -/
  magic0 : Byte
  /-- P_MAGIC, the signature byte at file offset 1. -/
  magic1 : Byte
  /-- P_CLRUSED_OFF. -/
  clrUsedOff : ClrUsedOff
  /-- P_ROWBUF_MAX, the capacity of the row buffer in bytes; legal values are WellFormed's `Params.wellFormed`. -/
  rowBufMax : Nat
deriving DecidableEq, Repr

/-- Who moves in a step: the host makes its next access, the block's sequencer its next step, or the platform
asserts the reset input (R260, R275, R277). -/
inductive Turn where
  | host
  | block
  | reset
deriving DecidableEq, Repr, Inhabited

/-- What the source does in the step in which it is asked (R62, R63, R66). -/
inductive SrcDraw where
  /-- It answers as the reference file model of R67 does. -/
  | reference
  /-- It answers IOErr (R66). -/
  | ioErr
  /-- It answers these bytes, whatever they are: a short answer (R63), or a source whose content changed (R88).
  To a SEEK, whose answer carries no bytes, it answers OK. -/
  | bytes (b : List Byte)
  /-- It has not answered yet: the request waits, and the block with it (R61, R245). -/
  | silent
deriving DecidableEq, Repr, Inhabited

/-- What the surface does in the step in which it is asked to take a pixel (R68). -/
inductive SurfDraw where
  /-- It accepts the write. -/
  | accepts
  /-- It has not accepted it yet: the block waits (R68, R245). -/
  | silent
deriving DecidableEq, Repr, Inhabited

/-- FREE VALUE. Who moves at step `n`, where the schedule in State names no one: "the host's accesses interleave
with those steps in any order" (R275), and reset may be asserted "at any time" (R260). Assumption 3. -/
opaque Config.freeTurn : Nat → Turn

/-- FREE VALUE. What the source answers at step `n`, where the plan in State names nothing: "a model takes it as a
free draw at every SEEK and READ" (R66). Assumption 4. -/
opaque Config.freeSrcDraw : Nat → SrcDraw

/-- FREE VALUE. Whether the surface accepts at step `n`, where the plan in State names nothing (R68, R245).
Assumption 5. -/
opaque Config.freeSurfDraw : Nat → SurfDraw

/-- FREE VALUE. By how much P_ROWBUF_MAX exceeds its least value 4: R10 leaves it OPEN with
4 <= P_ROWBUF_MAX <= 2^32. Assumption 2. -/
opaque Config.rowBufSpan : Fin 4294967293

/-- The P_ROWBUF_MAX of the machine that leaves reset. -/
def Config.rowBufMax : Nat := 4 + Config.rowBufSpan.val

/-- The parameters of the machine that leaves reset: R10's defaults for P_MAGIC ("BM") and P_CLRUSED_OFF (42), and
a free P_ROWBUF_MAX. -/
def Params.default : Params where
  magic0 := 0x42
  magic1 := 0x4D
  clrUsedOff := .at42
  rowBufMax := Config.rowBufMax

end Sys2Proof
end

