-- ==== Sys2Proof/Syntax.lean ====
section
/-! DEFINITION. The seven commands of spec/opcode_table.json (30_encoding.md R91). A command is the unit the spec
calls an instruction (R19). -/

namespace Sys2Proof

/-- One constructor per row of the opcode map of R91. No command has a field: every operand comes from a fixed
host register (R20, R90, R96). -/
inductive Instr where
  | decode
  | inspect
  | pack
  | unpack
  | blend
  | darken
  | lighten
deriving DecidableEq, Repr

/-- Every command, in the order of R91. -/
def Instr.all : List Instr := [.decode, .inspect, .pack, .unpack, .blend, .darken, .lighten]

end Sys2Proof
end

