-- ==== Sys2Proof/WellFormed.lean ====
section
/-! DEFINITION. What is well formed: an instruction (no command has a field, so each is), a command word (R90 to
R92), and the parameters (R10). -/

namespace Sys2Proof

/-- No command names a register, an immediate or a mode (R90), so nothing in an instruction can be ill formed. -/
def Instr.wellFormed : Instr → Bool
  | .decode => true
  | .inspect => true
  | .pack => true
  | .unpack => true
  | .blend => true
  | .darken => true
  | .lighten => true

/-- Bits 31:4 of a command word, which must be zero (R90, R92). -/
def mbzField (w : Word) : BitVec 28 := w.extractLsb' 4 28

/-- Bits 3:0 of a command word, the command (R90, R91). -/
def opcField (w : Word) : BitVec 4 := w.extractLsb' 0 4

/-- A legal command word: no reserved bit set (R92), and an OPC of 1 to 7 (R91, R93). -/
def wellFormedWord (w : Word) : Bool :=
  mbzField w == 0 && (1 ≤ (opcField w).toNat && (opcField w).toNat ≤ 7)

/-- The legal values of the parameters (R10): 4 <= P_ROWBUF_MAX <= 2^32. -/
abbrev Params.wellFormed (p : Params) : Prop := 4 ≤ p.rowBufMax ∧ p.rowBufMax ≤ 2 ^ 32

end Sys2Proof
end

