-- ==== Sys2Proof/Decode.lean ====
section
/-! DEFINITION. Decoding a command word and encoding a command (30_encoding.md R90 to R95). The decoder is total on
every 32-bit word, and rejects by name. -/

namespace Sys2Proof

/-- Why a word is no command (R93): both are the same ILLEGAL outcome for the host. -/
inductive DecodeError where
  /-- Some bit of 31:4 is set (R92), whatever the OPC. -/
  | reservedBitsSet
  /-- Bits 31:4 are zero and OPC is 0x0 or 0x8 to 0xF (R93). -/
  | reservedOpcode
deriving DecidableEq, Repr

/-- One row of the opcode map: the command, the bits of the word that are compared, and what they must be. -/
structure OpcodeRow where
  instr : Instr
  mask : Word
  pattern : Word
deriving DecidableEq, Repr

/-- The opcode map of R91: "`match` is the whole 32-bit word (mask 0xFFFFFFFF)". -/
def opcodeTable : List OpcodeRow :=
  [⟨.decode, 0xFFFFFFFF, 0x00000001⟩,
   ⟨.inspect, 0xFFFFFFFF, 0x00000002⟩,
   ⟨.pack, 0xFFFFFFFF, 0x00000003⟩,
   ⟨.unpack, 0xFFFFFFFF, 0x00000004⟩,
   ⟨.blend, 0xFFFFFFFF, 0x00000005⟩,
   ⟨.darken, 0xFFFFFFFF, 0x00000006⟩,
   ⟨.lighten, 0xFFFFFFFF, 0x00000007⟩]

/-- A word matches a row when the masked word is the row's pattern. -/
def OpcodeRow.matchesWord (r : OpcodeRow) (w : Word) : Bool := w &&& r.mask == r.pattern

/-- The command of a word, or why it has none: "Compare the whole word with the seven words of rule R91; a match
selects that command, and any other word is illegal" (R95). -/
def decode (w : Word) : Except DecodeError Instr :=
  match opcodeTable.find? (·.matchesWord w) with
  | some r => .ok r.instr
  | none => if mbzField w = 0 then .error .reservedOpcode else .error .reservedBitsSet

/-- OPC of each command, bits 3:0 (R91). -/
def Instr.opc : Instr → BitVec 4
  | .decode => 0x1
  | .inspect => 0x2
  | .pack => 0x3
  | .unpack => 0x4
  | .blend => 0x5
  | .darken => 0x6
  | .lighten => 0x7

/-- The word of a command, format CMD32 (R90): MBZ in bits 31:4, OPC in bits 3:0. -/
def encode (i : Instr) : Word := (0 : BitVec 28) ++ i.opc

/-- The command word that a row of the opcode table lays out in `nbits` bits, the bits above them zero: a command is
one 32-bit word (R90), so bit `k` of the table is bit `k` of the word. -/
def tableWord (nbits w : Nat) : Word := BitVec.ofNat 32 (w % 2 ^ nbits)

/-- What the decoder reads from a word numbered as spec/opcode_table.json numbers it. -/
def decodeTableWord (nbits w : Nat) : Option Instr := (decode (tableWord nbits w)).toOption

end Sys2Proof
end

