-- ==== Sys2Proof/Machine/State.lean ====
section
/-! DEFINITION. The state of BMPDEC (10_state.md) and of the agents at its ports (20_memory.md, 70_reset_and_hazards.md
R277): plain data. -/

namespace Sys2Proof.Machine

open Sys2Proof

/-- The FormatError kinds (R102, R221 to R226). -/
inductive FormatKind where
  | badSignature
  | unsupportedDepth
  | compressionUnsupported
  | badPlaneCount
  | truncatedPalette
  | truncatedRow
deriving DecidableEq, Repr

/-- The reasons of an UNSUPPORTED outcome (R102, R228). -/
inductive UnsupportedReason where
  | shortHeader
  | negativeDimension
  | rowTooLong
deriving DecidableEq, Repr

/-- The outcome of a command (R220). -/
inductive CmdOutcome where
  | ok
  | format (k : FormatKind)
  | ioErr
  | unsupported (r : UnsupportedReason)
  | illegal
deriving DecidableEq, Repr

/-- STATUS (R23 to R27): its four fields. The bits R23 does not list read 0 and are not stored. -/
structure Status where
  busy : Bool
  done : Bool
  cls : BitVec 3
  kind : BitVec 4
deriving DecidableEq, Repr

/-- The host registers of R22 that hold state. CMD holds none (R22a). -/
structure Regs where
  /-- STATUS, offset 0x04. -/
  status : Status
  /-- CLIP_CTRL, offset 0x08: only bits 1:0 are stored (R28, R36). -/
  clipCtrl : BitVec 2
  /-- DEST_X, offset 0x0C. -/
  destX : Word
  /-- DEST_Y, offset 0x10. -/
  destY : Word
  /-- MAX_W, offset 0x14. -/
  maxW : Word
  /-- MAX_H, offset 0x18. -/
  maxH : Word
  /-- CODEC_A, offset 0x1C. -/
  codecA : Word
  /-- CODEC_B, offset 0x20. -/
  codecB : Word
  /-- CODEC_F, offset 0x24. -/
  codecF : Word
  /-- CODEC_RES, offset 0x28. -/
  codecRes : Word
  /-- INFO_WIDTH, offset 0x2C. -/
  infoWidth : Word
  /-- INFO_HEIGHT, offset 0x30. -/
  infoHeight : Word
  /-- INFO_BPP, offset 0x34. -/
  infoBpp : Word
  /-- INFO_FILESIZE, offset 0x38. -/
  infoFileSize : Word
  /-- INFO_PALCOLORS, offset 0x3C. -/
  infoPalColors : Word
deriving DecidableEq, Repr

/-- ST.op, the running command (R37). -/
inductive RunningOp where
  | none
  | inspect
  | decode
deriving DecidableEq, Repr

/-- ST.step, the next event of the running command (R37), and `complete`, the completion step that follows the
RELEASE event and issues no event (R231; assumption 9). -/
inductive SeqStep where
  | seekFH
  | readFH
  | readIH
  | seekPal
  | readPal
  | rowSeek
  | rowRead
  | pixel
  | release
  | complete
deriving DecidableEq, Repr

/-- ST, the internal state of the sequencer (R37 to R40), each latch with the width R38 and R39 give it. -/
structure Sequencer where
  op : RunningOp
  step : SeqStep
  /-- ST.outcome, the outcome to report at completion (R37). -/
  outcome : CmdOutcome
  fileSize : Word
  pixOff : Word
  /-- ST.width, a signed 32-bit value. -/
  width : Word
  /-- ST.height, a signed 32-bit value. -/
  height : Word
  planes : BitVec 16
  bpp : BitVec 16
  comp : Word
  clrUsed : Word
  /-- ST.dx, a signed 32-bit value. -/
  dx : Word
  /-- ST.dy, a signed 32-bit value. -/
  dy : Word
  /-- ST.bpg, the bytes of one pixel: 1 or 3. -/
  bpg : Nat
  rowStride : Nat
  palLen : Nat
  /-- ST.loadW; a value <= 0 is an empty range. -/
  loadW : Int
  /-- ST.loadH; a value <= 0 is an empty range. -/
  loadH : Int
  row : Nat
  col : Nat
deriving DecidableEq, Repr

/-- PAL, 256 entries of one packed colour (R41). -/
abbrev Palette := Vector Color16 256

/-- Bytes by address, in the one form `Memory.wf` of Machine/Ops.lean fixes: addresses strictly rising, and no
entry equal to what an unlisted address reads as. ROWBUF (R42) is one. -/
abbrev Memory := List Host.Cell

/-- The byte source bound to the source port: the byte sequence and the position of the reference model (R67), and
what it does at the next requests it is sent, in order; past the end of the plan `Config.freeSrcDraw` says. -/
structure Source where
  bytes : List Byte
  pos : Nat
  plan : List SrcDraw
deriving DecidableEq, Repr

/-- One written pixel of a surface (R60: a signed coordinate pair and a packed colour). -/
structure SurfCell where
  x : Int
  y : Int
  color : Color16
deriving DecidableEq, Repr

/-- The pixel surface bound to the surface port: a surface that keeps the last value written to each coordinate
(R278), in the one form `surfaceWf` of Machine/Ops.lean fixes, and what it does at the next writes. -/
structure Surface where
  cells : List SurfCell
  plan : List SurfDraw
deriving DecidableEq, Repr

/-- The answer to a SEEK (R62). -/
inductive SeekAnswer where
  | ok
  | ioErr
deriving DecidableEq, Repr

/-- The answer to a READ (R63). -/
inductive ReadAnswer where
  | bytes (b : List Byte)
  | ioErr
deriving DecidableEq, Repr

/-- One port primitive with its arguments and its answer (R16, R19): what the trace lists (R81, R278). -/
inductive Event where
  | seek (o : Nat) (a : SeekAnswer)
  | read (n : Nat) (a : ReadAnswer)
  | release
  | surfSet (x y : Int) (c : Color16)
deriving DecidableEq, Repr

/-- The width of a host access; the block's interface has only 32-bit ones (R72). -/
inductive AccessSize where
  | bits8
  | bits16
  | bits32
  | bits64
deriving DecidableEq, Repr

/-- One action of the host, in the order of its program (R111, R112, R264). -/
inductive HostAction where
  /-- `RD`: read the register at a byte offset of the window. -/
  | read (size : AccessSize) (off : BitVec 8)
  /-- `WR`: write a value to the register at a byte offset of the window. -/
  | write (size : AccessSize) (off : BitVec 8) (v : Word)
  /-- `WAIT`: `RD STATUS` again and again until bit 0 reads 0 (R112). -/
  | wait
  /-- Bind a source to the source port (R264 step 2, R265). -/
  | bindSource (src : Source)
  /-- Bind a surface to the surface port (R264 step 3), with this content and this plan. -/
  | bindSurface (content : List SurfCell) (plan : List SurfDraw)
deriving DecidableEq, Repr

/-- One value the host has read: the offset read and the value it got (R111). -/
structure ReadRecord where
  off : BitVec 8
  value : Word
deriving DecidableEq, Repr

/-- The whole state. The first five fields are BMPDEC; the others are the agents at its ports and the trace, which
is "the observation a model records" (R243), not a feature of the block. -/
structure State where
  /-- The implementation parameters (R10); no step changes them. -/
  params : Params
  /-- The host registers (R22). -/
  regs : Regs
  /-- ST, the sequencer (R37 to R40). -/
  st : Sequencer
  /-- PAL (R41). -/
  pal : Palette
  /-- ROWBUF (R42). -/
  rowBuf : Memory
  /-- The source bound to the source port (R60, R67). -/
  src : Source
  /-- The surface bound to the surface port (R60, R278). -/
  surf : Surface
  /-- Every event issued and answered so far, oldest first (R81, R278). -/
  trace : List Event
  /-- The host's remaining actions, in program order (R277). -/
  prog : List HostAction
  /-- The values the host has read, oldest first. -/
  reads : List ReadRecord
  /-- Who moves in the next steps; past its end `Config.freeTurn` says (assumption 3). -/
  sched : List Turn
  /-- How many steps have been taken: the counter the free values are applied to (the model's own field). -/
  ticks : Nat
deriving DecidableEq, Repr

/-- Why the machine stops with a fault. "BMPDEC itself never faults" (R245): from a state that meets the invariant
`Invariant` of Safety.lean no step ends here. -/
inductive Fault where
  /-- Raised by the row-buffer accesses of ROW_READ and PIXEL (Machine/Ops.lean) for an index at or above
  P_ROWBUF_MAX, which no byte of ROWBUF has (R42). No run reaches it (R174). Safe. -/
  | rowBufBounds
deriving DecidableEq, Repr

/-- Why a step has no meaning: the two refusals of R245, and the host's name for an instruction without a meaning. -/
inductive Refusal where
  /-- An instruction that has no meaning yet; `exec` alone may answer it. Safe. -/
  | notModelled (mnemonic : String)
  /-- Raised by a host access that is not a 32-bit access at a multiple of 4: "a model refuses the run at that
  access (errs toward unprovable)" (R72). Safe. -/
  | hostAccess
  /-- Raised by a READ of n bytes that the source answers with more than n: "a model refuses the run at that answer
  (errs toward unprovable)" (R63). Safe. -/
  | overlongAnswer
deriving DecidableEq, Repr

/-- STATUS after reset, 0x00000000 (R23, R46). -/
def Status.reset : Status where
  busy := false
  done := false
  cls := 0
  kind := 0

/-- The host registers after reset: each 0x00000000 (R46). -/
def Regs.reset : Regs where
  status := Status.reset
  clipCtrl := 0
  destX := 0
  destY := 0
  maxW := 0
  maxH := 0
  codecA := 0
  codecB := 0
  codecF := 0
  codecRes := 0
  infoWidth := 0
  infoHeight := 0
  infoBpp := 0
  infoFileSize := 0
  infoPalColors := 0

/-- ST after reset: ST.op = NONE (R46). The spec leaves every other element unspecified ("A model may start them at
any value", R263): the model starts them at 0, at the first step and at OK. DESIGN CHOICE, assumption 7. -/
def Sequencer.reset : Sequencer where
  op := .none
  step := .seekFH
  outcome := .ok
  fileSize := 0
  pixOff := 0
  width := 0
  height := 0
  planes := 0
  bpp := 0
  comp := 0
  clrUsed := 0
  dx := 0
  dy := 0
  bpg := 0
  rowStride := 0
  palLen := 0
  loadW := 0
  loadH := 0
  row := 0
  col := 0

/-- PAL after reset is unspecified (R41, R46): the model starts every entry at 0. DESIGN CHOICE, assumption 7. -/
def Palette.reset : Palette := Vector.replicate 256 0

/-- The machine right after reset (R46, R260, R262): idle, every host register 0. Nothing is bound to a port (a
source with no bytes, each of whose answers is a free value; a surface nothing was written to), the host has no
program, and no step is scheduled. -/
def State.reset : State where
  params := Params.default
  regs := Regs.reset
  st := Sequencer.reset
  pal := Palette.reset
  rowBuf := []
  src := ⟨[], 0, []⟩
  surf := ⟨[], []⟩
  trace := []
  prog := []
  reads := []
  sched := []
  ticks := 0

end Sys2Proof.Machine
end

