-- ==== Sys2Proof/Machine/Operands.lean ====
section
/-! DEFINITION. The operands and results of the codec commands in the host registers (30_encoding.md R96 to R99,
R101). No command has another operand form. -/

namespace Sys2Proof.Machine

open Sys2Proof

/-- Three unsigned 8-bit colour channels. -/
structure Rgb where
  r : Byte
  g : Byte
  b : Byte
deriving DecidableEq, Repr

/-- PACK's operand (R97): red in CODEC_A[7:0], green in [15:8], blue in [23:16]; bits 31:24 are ignored. -/
def Regs.packOperand (r : Regs) : Rgb where
  r := r.codecA.extractLsb' 0 8
  g := r.codecA.extractLsb' 8 8
  b := r.codecA.extractLsb' 16 8

/-- The packed colour `c`, or BLEND's `c1`, in CODEC_A[15:0]; bits 31:16 are ignored (R98). -/
def Regs.colorA (r : Regs) : Color16 := r.codecA.extractLsb' 0 16

/-- BLEND's packed colour `c2` in CODEC_B[15:0]; bits 31:16 are ignored (R98). -/
def Regs.colorB (r : Regs) : Color16 := r.codecB.extractLsb' 0 16

/-- The fraction F = sext_32(R[CODEC_F]), which stands for F / 65536 (R99). -/
def Regs.fraction (r : Regs) : Int := r.codecF.toInt

/-- A packed result in CODEC_RES: zext_32(c) (R101). -/
def colorResult (c : Color16) : Word := c.setWidth 32

/-- UNPACK's result in CODEC_RES (R101): red in bits 7:0, green in 15:8, blue in 23:16, bits 31:24 zero. -/
def channelsResult (p : Rgb) : Word := (0 : BitVec 8) ++ p.b ++ p.g ++ p.r

end Sys2Proof.Machine
end

