-- ==== Sys2Proof/Machine/Colour.lean ====
section
/-! DEFINITION. The colour functions of 40_codec.md section 1 (R130 to R137) and the packed colour of R100. All
arithmetic on the fraction is exact integer arithmetic (R99). -/

namespace Sys2Proof.Machine

open Sys2Proof

/-- The two bytes of a 16-bit value exchanged (R100, R130, R131). -/
def exchangeBytes (n : BitVec 16) : BitVec 16 := n.extractLsb' 0 8 ++ n.extractLsb' 8 8

/-- `packColor` (R130): n = r[7:3], g[7:2], b[7:3] from the top bit down, then its bytes exchanged. -/
def packColor (p : Rgb) : Color16 :=
  exchangeBytes (p.r.extractLsb' 3 5 ++ p.g.extractLsb' 2 6 ++ p.b.extractLsb' 3 5)

/-- `unpackColor` (R131): the byte exchange undone, then each channel's field with its low bits zero. -/
def unpackColor (c : Color16) : Rgb where
  r := (exchangeBytes c).extractLsb' 11 5 ++ (0 : BitVec 3)
  g := (exchangeBytes c).extractLsb' 5 6 ++ (0 : BitVec 2)
  b := (exchangeBytes c).extractLsb' 0 5 ++ (0 : BitVec 3)

/-- FALLBACK, the colour of an out-of-range palette index (R134). -/
def fallbackColor : Color16 := packColor ⟨0, 0, 0⟩

/-- `clamp(x, lo, hi)` (R13). -/
def clamp (x lo hi : Int) : Int := min (max x lo) hi

/-- A computed channel value as 8 bits; every value a rule computes lies in [0, 255] (R135, and the clamps of R136
and R137). -/
def toChannel (x : Int) : Byte := BitVec.ofInt 8 x

/-- One channel of `blendF` (R135): fdiv(a * F + b * (65536 - F), 65536). -/
def blendChannel (f : Int) (a b : Byte) : Byte :=
  toChannel ((a.toNat * f + b.toNat * (65536 - f)).fdiv 65536)

/-- `blendF` (R135): c2 exactly for F <= 0, c1 exactly for F >= 65536, and else each channel interpolated. -/
def blendF (c1 c2 : Color16) (f : Int) : Color16 :=
  if f ≤ 0 then c2
  else if 65536 ≤ f then c1
  else
    let p := unpackColor c1
    let q := unpackColor c2
    packColor ⟨blendChannel f p.r q.r, blendChannel f p.g q.g, blendChannel f p.b q.b⟩

/-- One channel of `darkenF` (R136): clamp(fdiv(ch * F, 65536), 0, 255). -/
def darkenChannel (f : Int) (ch : Byte) : Byte :=
  toChannel (clamp ((ch.toNat * f).fdiv 65536) 0 255)

/-- `darkenF` (R136): each channel multiplied by the factor. -/
def darkenF (c : Color16) (f : Int) : Color16 :=
  let p := unpackColor c
  packColor ⟨darkenChannel f p.r, darkenChannel f p.g, darkenChannel f p.b⟩

/-- One channel of `lightenF` (R137): clamp(fdiv(ch * 65536 + (255 - ch) * F, 65536), 0, 255). -/
def lightenChannel (f : Int) (ch : Byte) : Byte :=
  toChannel (clamp ((ch.toNat * 65536 + (255 - ch.toNat) * f).fdiv 65536) 0 255)

/-- `lightenF` (R137): each channel moved the fraction F / 65536 of the way to 255. -/
def lightenF (c : Color16) (f : Int) : Color16 :=
  let p := unpackColor c
  packColor ⟨lightenChannel f p.r, lightenChannel f p.g, lightenChannel f p.b⟩

end Sys2Proof.Machine
end

