-- ==== Sys2Proof/Machine/Container.lean ====
section
/-! DEFINITION. The bitmap container (30_encoding.md R103 to R110): its fields, its palette and its pixels, as
functions of the bytes a READ answered. -/

namespace Sys2Proof.Machine

open Sys2Proof

/-- FILE_HDR_LEN (R9). -/
def fileHdrLen : Nat := 14

/-- INFO_HDR_LEN (R9). -/
def infoHdrLen : Nat := 40

/-- PAL_OFF = FILE_HDR_LEN + INFO_HDR_LEN (R9, R107). -/
def palOff : Nat := fileHdrLen + infoHdrLen

/-- PAL_ENTRY_LEN (R9). -/
def palEntryLen : Nat := 4

/-- Byte `i` of a byte sequence (R12). The rules read only bytes below the length; at and above it this is 0
(assumption 18). -/
def byteAt (b : List Byte) (i : Nat) : Byte := b[i]?.getD 0

/-- `le16` (R14). -/
def le16 (b : List Byte) (o : Nat) : BitVec 16 := byteAt b (o + 1) ++ byteAt b o

/-- `le32` (R14): the byte at the lowest offset is the least significant. -/
def le32 (b : List Byte) (o : Nat) : Word := byteAt b (o + 3) ++ byteAt b (o + 2) ++ byteAt b (o + 1) ++ byteAt b o

/-- The signature test of R162: at least two bytes, and the first two equal to P_MAGIC. -/
def signatureMatches (p : Params) (fh : List Byte) : Bool :=
  2 ≤ fh.length && byteAt fh 0 == p.magic0 && byteAt fh 1 == p.magic1

/-- P_CLRUSED_OFF as an index of the 40 info-header bytes (R104, R167). -/
def clrUsedIndex (p : Params) : Nat := p.clrUsedOff.fileOffset - fileHdrLen

/-- The validation of R168, in its order: the first failing test decides. -/
def validateFormat (bpp : BitVec 16) (comp : Word) (planes : BitVec 16) : Option FormatKind :=
  if bpp ≠ 8 ∧ bpp ≠ 24 then some .unsupportedDepth
  else if comp ≠ 0 then some .compressionUnsupported
  else if planes ≠ 1 then some .badPlaneCount
  else none

/-- The palette entry count N of R175: colorsUsed, or 256 where it is 0. -/
def paletteCount (clrUsed : Word) : Nat := if 0 < clrUsed.toNat then clrUsed.toNat else 256

/-- The palette colour count INSPECT reports (R169). -/
def inspectPalColors (bpp : BitVec 16) (clrUsed : Word) : Word :=
  if bpp = 8 then BitVec.ofNat 32 (paletteCount clrUsed) else 0

/-- `cdiv(a, 4) * 4` for a length `a` (R13, R173). -/
def roundUp4 (a : Nat) : Nat := (a + 3) / 4 * 4

/-- ST.bpg (R173): the bytes of one pixel. -/
def bytesPerPixel (bpp : BitVec 16) : Nat := bpp.toNat / 8

/-- ST.rowStride (R173) of a non-negative width. -/
def rowStrideOf (width : Word) (bpg : Nat) : Nat := roundUp4 (width.toInt.toNat * bpg)

/-- The channels stored as blue, green, red from byte `o` on (R74, R107, R110). -/
def bgrAt (b : List Byte) (o : Nat) : Rgb where
  r := byteAt b (o + 2)
  g := byteAt b (o + 1)
  b := byteAt b o

/-- Palette entry `k` of the palette bytes (R107, R176): blue, green, red, and a reserved byte that is discarded. -/
def paletteEntry (pb : List Byte) (k : Nat) : Color16 := packColor (bgrAt pb (palEntryLen * k))

/-- The palette build of R176: entries 0 to min(N, 256) - 1 are written, the others keep what they hold. -/
def buildPalette (old : Palette) (n : Nat) (pb : List Byte) : Palette :=
  Vector.ofFn fun k : Fin 256 => if k.val < n then paletteEntry pb k.val else old[k]

/-- A clip length of R178: the image's, or the smaller of it and the bound where the bound is enabled. -/
def clipLength (enabled : Bool) (image bound : Word) : Int :=
  if enabled then min image.toInt bound.toInt else image.toInt

/-- The stored row of a destination row (R179): bmpRow = height - 1 - row. -/
def storedRow (height : Word) (row : Nat) : Int := height.toInt - 1 - row

/-- The file offset of the stored row of a destination row (R180). It is never negative where the rules use it
(R64); below 0 this is 0 (assumption 18). -/
def rowOffset (pixOff height : Word) (rowStride row : Nat) : Nat :=
  (pixOff.toNat + storedRow height row * rowStride).toNat

end Sys2Proof.Machine
end

