-- ==== Sys2Proof/Machine/Flags.lean ====
section
/-! DEFINITION. STATUS (10_state.md R23 to R27) and the status codes (30_encoding.md R102). BMPDEC has no arithmetic
flags (R43): these fields are its only status bits. -/

namespace Sys2Proof.Machine

open Sys2Proof

/-- STATUS.CLASS of an outcome (R26, R102). -/
def CmdOutcome.classCode : CmdOutcome → BitVec 3
  | .ok => 0
  | .format _ => 1
  | .ioErr => 2
  | .unsupported _ => 3
  | .illegal => 4

/-- The number of a FormatError kind (R102). -/
def FormatKind.code : FormatKind → BitVec 4
  | .badSignature => 1
  | .unsupportedDepth => 2
  | .compressionUnsupported => 3
  | .badPlaneCount => 4
  | .truncatedPalette => 5
  | .truncatedRow => 6

/-- The number of an UNSUPPORTED reason (R102, R228). -/
def UnsupportedReason.code : UnsupportedReason → BitVec 4
  | .shortHeader => 1
  | .negativeDimension => 2
  | .rowTooLong => 3

/-- STATUS.KIND of an outcome (R27, R102). -/
def CmdOutcome.kindCode : CmdOutcome → BitVec 4
  | .ok => 0
  | .format k => k.code
  | .ioErr => 0
  | .unsupported r => r.code
  | .illegal => 0

/-- STATUS as the host reads it (R23): BUSY in bit 0, DONE in bit 1, CLASS in bits 6:4, KIND in bits 11:8, and 0 in
every other bit. -/
def Status.word (t : Status) : Word :=
  (0 : BitVec 20) ++ t.kind ++ (0 : BitVec 1) ++ t.cls ++ (0 : BitVec 2) ++ BitVec.ofBool t.done ++ BitVec.ofBool t.busy

/-- STATUS while a DECODE or INSPECT runs: BUSY = 1, DONE, CLASS and KIND = 0 (R160, R47). -/
def Status.running : Status where
  busy := true
  done := false
  cls := 0
  kind := 0

/-- STATUS after the completion of a command with an outcome: BUSY = 0, DONE = 1, and the outcome's codes (R231). -/
def Status.completed (o : CmdOutcome) : Status where
  busy := false
  done := true
  cls := o.classCode
  kind := o.kindCode

end Sys2Proof.Machine
end

