-- ==== Sys2Proof/Machine/Ops.lean ====
section
/-! DEFINITION. The operations the meanings share: memory, the two ports (20_memory.md), issuing and ending a command
(60_exceptions.md R231, the counterpart of taking an exception and returning from one), and reset. -/

namespace Sys2Proof.Machine

open Sys2Proof

/-- The result of a step of this machine. -/
abbrev StepResult := Host.Outcome State Fault Refusal

/-! ## Bytes by address (ROWBUF, R42) -/

/-- What a byte of ROWBUF that nothing has written reads as: R42 leaves it unspecified. DESIGN CHOICE, assumption 8. -/
def Memory.unlisted : Byte := 0

/-- The byte at an address. -/
def Memory.read : Memory → Nat → Byte
  | [], _ => Memory.unlisted
  | (b, v) :: m, a => if a = b then v else Memory.read m a

/-- The memory with a byte written at an address, in canonical form. -/
def Memory.write : Memory → Nat → Byte → Memory
  | [], a, v => if v = Memory.unlisted then [] else [(a, v)]
  | (b, w) :: m, a, v =>
    if a < b then (if v = Memory.unlisted then (b, w) :: m else (a, v) :: (b, w) :: m)
    else if a = b then (if v = Memory.unlisted then m else (a, v) :: m)
    else (b, w) :: Memory.write m a v

/-- The memory with a byte sequence written from an address on. -/
def Memory.writeBytes : Memory → Nat → List Byte → Memory
  | m, _, [] => m
  | m, a, v :: vs => Memory.writeBytes (Memory.write m a v) (a + 1) vs

/-- The canonical form: addresses strictly rising, and no entry equal to what an unlisted address reads as. -/
abbrev Memory.wf (m : Memory) : Prop :=
  m.Pairwise (fun c d => c.1 < d.1) ∧ ∀ c ∈ m, c.2 ≠ Memory.unlisted

/-! ## Pixels by coordinate (the surface of R278) -/

/-- The order of a surface's entries: by row, then by column. -/
abbrev SurfCell.before (c d : SurfCell) : Prop := c.y < d.y ∨ (c.y = d.y ∧ c.x < d.x)

/-- The colour last written to a coordinate, or none where nothing was. -/
def surfaceRead : List SurfCell → Int → Int → Option Color16
  | [], _, _ => none
  | d :: m, x, y => if x = d.x ∧ y = d.y then some d.color else surfaceRead m x y

/-- The content with a pixel written, in canonical form. -/
def surfaceWrite : List SurfCell → SurfCell → List SurfCell
  | [], c => [c]
  | d :: m, c =>
    if c.before d then c :: d :: m
    else if c.x = d.x ∧ c.y = d.y then c :: m
    else d :: surfaceWrite m c

/-- The canonical form: the coordinates strictly rising. -/
abbrev surfaceWf (m : List SurfCell) : Prop := m.Pairwise SurfCell.before

/-- Content given as any list of pixels, later ones over earlier ones, in canonical form. -/
def surfaceOf (cells : List SurfCell) : List SurfCell := cells.foldl surfaceWrite []

/-! ## The trace and the ports -/

/-- The event, with its answer, enters the trace (R81). -/
def State.log (s : State) (e : Event) : State := { s with trace := s.trace ++ [e] }

/-- What the source does now: the head of its plan, or a free value past its end (R66; assumption 4). -/
def State.srcDraw (s : State) : SrcDraw :=
  match s.src.plan with
  | d :: _ => d
  | [] => Config.freeSrcDraw s.ticks

/-- The head of the source's plan is used up. -/
def State.useSrcDraw (s : State) : State := { s with src := { s.src with plan := s.src.plan.tail } }

/-- What the surface does now (R68; assumption 5). -/
def State.surfDraw (s : State) : SurfDraw :=
  match s.surf.plan with
  | d :: _ => d
  | [] => Config.freeSurfDraw s.ticks

/-- The head of the surface's plan is used up. -/
def State.useSurfDraw (s : State) : State := { s with surf := { s.surf with plan := s.surf.plan.tail } }

/-- A command ends with an outcome, by `raise` or by `finish OK` (R17, R231): the outcome is kept for the completion
step, the next event is RELEASE, and nothing else changes. -/
def State.endCommand (s : State) (o : CmdOutcome) : State :=
  { s with st := { s.st with outcome := o, step := .release } }

/-- `raise Format(kind)` (R17). -/
def raiseFormat (s : State) (k : FormatKind) : StepResult := .next (s.endCommand (.format k))

/-- `raise Unsupported(reason)` (R17). -/
def raiseUnsupported (s : State) (r : UnsupportedReason) : StepResult := .next (s.endCommand (.unsupported r))

/-- `finish OK` (R17). -/
def finishOk (s : State) : StepResult := .next (s.endCommand .ok)

/-- A SEEK is answered OK (R62): the position is `o`. -/
def State.seekDone (s : State) (o : Nat) : State :=
  { s with src := { s.src with pos := o, plan := s.src.plan.tail }, trace := s.trace ++ [.seek o .ok] }

/-- A READ of `n` bytes is answered with `b` (R63): the position moves on by the length of the answer. -/
def State.readDone (s : State) (n : Nat) (b : List Byte) : State :=
  { s with
    src := { s.src with pos := s.src.pos + b.length, plan := s.src.plan.tail }
    trace := s.trace ++ [.read n (.bytes b)] }

/-- A SEEK or READ is answered IOErr, which ends the command with IOERR (R66, R227). No rule says where the source's
position is then: R62, R63 and R67 give it for the other answers only. The model leaves it where it was. DESIGN CHOICE,
assumption 27. -/
def State.requestFailed (s : State) (e : Event) : State := (s.useSrcDraw.log e).endCommand .ioErr

/-- `SrcSeek(o)` (R62), and the command's computation up to its next event as `k`. Without an answer the block waits
(R61, R245). -/
def srcSeek (s : State) (o : Nat) (k : State → StepResult) : StepResult :=
  match s.srcDraw with
  | .silent => .next s.useSrcDraw
  | .ioErr => .next (s.requestFailed (.seek o .ioErr))
  | .reference => k (s.seekDone o)
  | .bytes _ => k (s.seekDone o)

/-- The bytes the reference file model answers to READ(n) (R67): `S[pos .. min(pos + n, L) - 1]`. -/
def Source.slice (src : Source) (n : Nat) : List Byte := (src.bytes.drop src.pos).take n

/-- A READ of `n` bytes gets the answer `b`: one longer than `n` is outside the port's contract and is refused (R63). -/
def readAnswered (s : State) (n : Nat) (b : List Byte) (k : State → List Byte → StepResult) : StepResult :=
  if n < b.length then .refused .overlongAnswer else k (s.readDone n b) b

/-- `SrcRead(n)` (R63), and the command's computation up to its next event as `k`. IOErr ends the command "before any
check that would use the answer" (R227). -/
def srcRead (s : State) (n : Nat) (k : State → List Byte → StepResult) : StepResult :=
  match s.srcDraw with
  | .silent => .next s.useSrcDraw
  | .ioErr => .next (s.requestFailed (.read n .ioErr))
  | .reference => readAnswered s n (s.src.slice n) k
  | .bytes b => readAnswered s n b k

/-- `SrcRelease()` (R65): it has no answer and cannot fail, and "RELEASE changes nothing visible" (R67). -/
def srcRelease (s : State) (k : State → StepResult) : StepResult := k (s.log .release)

/-- A pixel is accepted (R68): a surface that keeps the last value written to each coordinate holds it (R278). -/
def State.pixelDone (s : State) (x y : Int) (c : Color16) : State :=
  { s with
    surf := { cells := surfaceWrite s.surf.cells ⟨x, y, c⟩, plan := s.surf.plan.tail }
    trace := s.trace ++ [.surfSet x y c] }

/-- `SurfSet(x, y, c)` (R68): no answer and no failure, and no check of the coordinate (R69). The next event comes
only after the surface has accepted the write. -/
def surfSet (s : State) (x y : Int) (c : Color16) (k : State → StepResult) : StepResult :=
  match s.surfDraw with
  | .silent => .next s.useSurfDraw
  | .accepts => k (s.pixelDone x y c)

/-! ## The row buffer -/

/-- `ROWBUF[0 .. n - 1] <- b` for a sequence of n bytes (R180). ROWBUF has no byte at or above P_ROWBUF_MAX (R42). -/
def writeRowBuf (s : State) (b : List Byte) (k : State → StepResult) : StepResult :=
  if s.params.rowBufMax < b.length then .fault .rowBufBounds
  else k { s with rowBuf := s.rowBuf.writeBytes 0 b }

/-- `ROWBUF[i .. i + n - 1]`, as the first address, checked against P_ROWBUF_MAX (R42). -/
def withRowBuf (s : State) (i n : Nat) (k : StepResult) : StepResult :=
  if s.params.rowBufMax < i + n then .fault .rowBufBounds else k

/-! ## Issue, completion and reset -/

/-- A command word is accepted only while STATUS.BUSY = 0: "A write to CMD while STATUS.BUSY = 1 has no effect" (R22a,
R47). -/
def accept (s : State) (k : State → State) : State := if s.regs.status.busy then s else k s

/-- Issue of INSPECT or DECODE (R160): STATUS reads BUSY, and the sequencer starts at SEEK_FH. No event is issued. -/
def State.issue (s : State) (op : RunningOp) : State :=
  { s with
    regs := { s.regs with status := Status.running }
    st := { s.st with op := op, step := .seekFH } }

/-- The completion of a codec command (R138): CODEC_RES and STATUS are written, and nothing else. -/
def State.codecResult (s : State) (v : Word) : State :=
  { s with regs := { s.regs with codecRes := v, status := Status.completed .ok } }

/-- An illegal command word (R93, R229): STATUS is written, and nothing else. -/
def illegalCommand (s : State) : StepResult :=
  .next (accept s fun s => { s with regs := { s.regs with status := Status.completed .illegal } })

/-- The five INFO registers from the latches (R35, R170). -/
def Regs.withInfo (r : Regs) (st : Sequencer) : Regs :=
  { r with
    infoWidth := st.width
    infoHeight := st.height
    infoBpp := st.bpp.setWidth 32
    infoFileSize := st.fileSize
    infoPalColors := inspectPalColors st.bpp st.clrUsed }

/-- The registers after the completion step (R231): STATUS, and the INFO registers where an INSPECT ended OK. -/
def State.completedRegs (s : State) : Regs :=
  let r := { s.regs with status := Status.completed s.st.outcome }
  if s.st.op = .inspect ∧ s.st.outcome = .ok then r.withInfo s.st else r

/-- The completion step (R231): "This is all that ending a command changes." -/
def State.completeCommand (s : State) : State :=
  { s with regs := s.completedRegs, st := { s.st with op := .none } }

/-- The platform asserts reset (R260, R261): the whole block takes its reset values in one step; it issues no event,
and the ports, the trace and the host stay as they are. -/
def State.resetBlock (s : State) : State :=
  { s with regs := Regs.reset, st := Sequencer.reset, pal := Palette.reset, rowBuf := [] }

/-! ## Whose step it is -/

/-- Who moves now: the head of the schedule, or a free value past its end (R275; assumption 3). -/
def State.turn (s : State) : Turn :=
  match s.sched with
  | t :: _ => t
  | [] => Config.freeTurn s.ticks

/-- A step is taken: the head of the schedule is used up and the counter advances. -/
def State.tick (s : State) : State := { s with sched := s.sched.tail, ticks := s.ticks + 1 }

end Sys2Proof.Machine
end

