-- ==== Sys2Proof/Machine/Codec.lean ====
section
/-! DEFINITION. The five codec commands (40_codec.md R138 to R143): each completes in the step of its CMD write. -/

namespace Sys2Proof.Machine

open Sys2Proof

/-- PACK (R139). -/
def execPack (s : State) : StepResult :=
  .next (accept s fun s => s.codecResult (colorResult (packColor s.regs.packOperand)))

/-- UNPACK (R140). -/
def execUnpack (s : State) : StepResult :=
  .next (accept s fun s => s.codecResult (channelsResult (unpackColor s.regs.colorA)))

/-- BLEND (R141). -/
def execBlend (s : State) : StepResult :=
  .next (accept s fun s => s.codecResult (colorResult (blendF s.regs.colorA s.regs.colorB s.regs.fraction)))

/-- DARKEN (R142). -/
def execDarken (s : State) : StepResult :=
  .next (accept s fun s => s.codecResult (colorResult (darkenF s.regs.colorA s.regs.fraction)))

/-- LIGHTEN (R143). -/
def execLighten (s : State) : StepResult :=
  .next (accept s fun s => s.codecResult (colorResult (lightenF s.regs.colorA s.regs.fraction)))

end Sys2Proof.Machine
end

