-- ==== Sys2Proof/Machine/Decoder.lean ====
section
/-! DEFINITION. The commands INSPECT and DECODE (41_decoder.md). Their CMD write issues them (R160); each event after
that, and the completion step, is one step of the sequencer (R275), in the order of the pseudocode of R171 and R186.
The computation between two events is done in the step of the earlier one, as 41_decoder.md allows. -/

namespace Sys2Proof.Machine

open Sys2Proof

/-! ## The CMD write -/

/-- INSPECT (R171): the step of its CMD write (R160). -/
def execInspect (s : State) : StepResult := .next (accept s fun s => s.issue .inspect)

/-- DECODE (R186): the step of its CMD write (R160), which also latches ST.dx and ST.dy. -/
def execDecode (s : State) : StepResult :=
  .next (accept s fun s =>
    let t := s.issue .decode
    { t with st := { t.st with dx := s.regs.destX, dy := s.regs.destY } })

/-! ## The steps of the sequencer -/

/-- The running command's next event is `step`. -/
def State.goto (s : State) (step : SeqStep) : State := { s with st := { s.st with step := step } }

/-- SEEK_FH: the first event of every INSPECT and DECODE is SrcSeek(0) (R161). -/
def stepSeekFH (s : State) : StepResult := srcSeek s 0 fun s => .next (s.goto .readFH)

/-- The file-header latches (R164). -/
def State.latchFileHeader (s : State) (fh : List Byte) : State :=
  { s with st := { s.st with fileSize := le32 fh 2, pixOff := le32 fh 10 } }

/-- READ_FH: the file header, its signature and its length (R162 to R164). -/
def stepReadFH (s : State) : StepResult :=
  srcRead s fileHdrLen fun s fh =>
    if signatureMatches s.params fh = false then raiseFormat s .badSignature
    else if fh.length < fileHdrLen then raiseUnsupported s .shortHeader
    else .next ((s.latchFileHeader fh).goto .readIH)

/-- The info-header latches (R167). -/
def State.latchInfoHeader (s : State) (ih : List Byte) : State :=
  { s with
    st := { s.st with
      width := le32 ih 4
      height := le32 ih 8
      planes := le16 ih 12
      bpp := le16 ih 14
      comp := le32 ih 16
      clrUsed := le32 ih (clrUsedIndex s.params) } }

/-- The clip region (R178), and the first row of it (R179): "When `ST.loadH <= 0` no row is read." ST.row is set to 0
in either case: no rule says what it holds when the clip region has no row (R40). DESIGN CHOICE, assumption 28. -/
def enterRows (s : State) : StepResult :=
  let t := { s with
    st := { s.st with
      loadW := clipLength (s.regs.clipCtrl.getLsbD 0) s.st.width s.regs.maxW
      loadH := clipLength (s.regs.clipCtrl.getLsbD 1) s.st.height s.regs.maxH
      row := 0 } }
  if t.st.loadH ≤ 0 then finishOk t else .next (t.goto .rowSeek)

/-- The row-stride latches (R173). -/
def State.latchStride (s : State) : State :=
  { s with
    st := { s.st with
      bpg := bytesPerPixel s.st.bpp
      rowStride := rowStrideOf s.st.width (bytesPerPixel s.st.bpp) } }

/-- DECODE after its validation: the dimension check (R172), the row stride (R173), the row-buffer capacity (R174),
and then the palette of an 8-bit image (R175) or the rows. -/
def startTransfer (s : State) : StepResult :=
  if s.st.width.toInt < 0 ∨ s.st.height.toInt < 0 then raiseUnsupported s .negativeDimension
  else
    let t := s.latchStride
    if t.params.rowBufMax < t.st.rowStride then raiseUnsupported t .rowTooLong
    else if t.st.bpp = 8 then .next (t.goto .seekPal)
    else enterRows t

/-- READ_IH: the info header, "with no seek before it" (R165 to R167), and its validation (R168). INSPECT then
finishes (R170). -/
def stepReadIH (s : State) : StepResult :=
  srcRead s infoHdrLen fun s ih =>
    if ih.length < infoHdrLen then raiseUnsupported s .shortHeader
    else
      let t := s.latchInfoHeader ih
      match validateFormat t.st.bpp t.st.comp t.st.planes with
      | some k => raiseFormat t k
      | none => if t.st.op = .inspect then finishOk t else startTransfer t

/-- SEEK_PAL: the palette "immediately follows the info header" (R107, R175). -/
def stepSeekPal (s : State) : StepResult := srcSeek s palOff fun s => .next (s.goto .readPal)

/-- READ_PAL: all 4 * N palette bytes (R175, R177), the palette build and ST.palLen (R176). -/
def stepReadPal (s : State) : StepResult :=
  let n := paletteCount s.st.clrUsed
  srcRead s (palEntryLen * n) fun s pb =>
    if pb.length < palEntryLen * n then raiseFormat s .truncatedPalette
    else enterRows { s with pal := buildPalette s.pal n pb, st := { s.st with palLen := n } }

/-- ROW_SEEK: the stored row of the destination row (R179, R180). -/
def stepRowSeek (s : State) : StepResult :=
  srcSeek s (rowOffset s.st.pixOff s.st.height s.st.rowStride s.st.row) fun s => .next (s.goto .rowRead)

/-- The row is transferred: the next row in increasing order (R179), or success after the last (R185). ST.col keeps
its last value until the next ROW_READ, and after the last row so does ST.row: no rule says what they hold then
(R40). DESIGN CHOICE, assumption 31. -/
def nextRow (s : State) : StepResult :=
  if (s.st.row : Int) + 1 < s.st.loadH then
    .next ({ s with st := { s.st with row := s.st.row + 1 } }.goto .rowSeek)
  else finishOk s

/-- ROW_READ: the whole padded row, whose truncation test "comes before any pixel of that row is written" (R180).
ST.col is set to 0 in either case: no rule says what it holds when the clip region has no column (R40). DESIGN
CHOICE, assumption 28. -/
def stepRowRead (s : State) : StepResult :=
  srcRead s s.st.rowStride fun s rb =>
    if rb.length < s.st.rowStride then raiseFormat s .truncatedRow
    else writeRowBuf s rb fun s =>
      let t := { s with st := { s.st with col := 0 } }
      if t.st.loadW ≤ 0 then nextRow t else .next (t.goto .pixel)

/-- The colour of an 8-bit pixel with this index (R181): its palette entry below ST.palLen, else FALLBACK. -/
def indexedColor (s : State) (idx : Byte) : Color16 :=
  if idx.toNat < s.st.palLen then s.pal[idx.toNat]'idx.isLt else fallbackColor

/-- The colour of column ST.col from ROWBUF (R181, R182). -/
def State.pixelColor (s : State) : Color16 :=
  if s.st.bpp = 8 then indexedColor s (s.rowBuf.read s.st.col)
  else packColor
    { r := s.rowBuf.read (3 * s.st.col + 2)
      g := s.rowBuf.read (3 * s.st.col + 1)
      b := s.rowBuf.read (3 * s.st.col) }

/-- The first byte of column ST.col in ROWBUF, and how many it has (R181, R182). -/
def State.pixelBytes (s : State) : Nat × Nat := if s.st.bpp = 8 then (s.st.col, 1) else (3 * s.st.col, 3)

/-- PIXEL: one pixel of the row (R181 to R183), columns in increasing order, then the next row. After the last column
of a row ST.col keeps that column until the next ROW_READ sets it to 0: no rule says what it holds then (R40). DESIGN
CHOICE, assumption 31. -/
def stepPixel (s : State) : StepResult :=
  withRowBuf s s.pixelBytes.1 s.pixelBytes.2 <|
    surfSet s (s.st.dx.toInt + s.st.col) (s.st.dy.toInt + s.st.row) s.pixelColor fun s =>
      if (s.st.col : Int) + 1 < s.st.loadW then .next { s with st := { s.st with col := s.st.col + 1 } }
      else nextRow s

/-- RELEASE: the last event of the command, on every outcome (R65, R232). -/
def stepRelease (s : State) : StepResult := srcRelease s fun s => .next (s.goto .complete)

/-- The completion step (R231). -/
def stepComplete (s : State) : StepResult := .next s.completeCommand

/-- The step of the running command that ST.step names (R37). -/
def runningStep (s : State) : StepResult :=
  match s.st.step with
  | .seekFH => stepSeekFH s
  | .readFH => stepReadFH s
  | .readIH => stepReadIH s
  | .seekPal => stepSeekPal s
  | .readPal => stepReadPal s
  | .rowSeek => stepRowSeek s
  | .rowRead => stepRowRead s
  | .pixel => stepPixel s
  | .release => stepRelease s
  | .complete => stepComplete s

/-- One step of BMPDEC: idle when ST.op = NONE, running otherwise (R244). -/
def blockStep (s : State) : StepResult :=
  match s.st.op with
  | .none => .next s
  | .inspect => runningStep s
  | .decode => runningStep s

end Sys2Proof.Machine
end

