-- ==== Sys2Proof/Machine/Dispatch.lean ====
section
/-! DEFINITION. One arm per command: the effect of the CMD write of its word. -/

namespace Sys2Proof.Machine

def exec (i : Instr) (s : State) : Host.Outcome State Fault Refusal :=
  match i with
  | .decode => Sys2Proof.Machine.execDecode s
  | .inspect => Sys2Proof.Machine.execInspect s
  | .pack => Sys2Proof.Machine.execPack s
  | .unpack => Sys2Proof.Machine.execUnpack s
  | .blend => Sys2Proof.Machine.execBlend s
  | .darken => Sys2Proof.Machine.execDarken s
  | .lighten => Sys2Proof.Machine.execLighten s

end Sys2Proof.Machine
end

