-- ==== Sys2Proof/Machine/HostPort.lean ====
section
/-! DEFINITION. The host register window (10_state.md R22, R36, R47; 20_memory.md R72) and the host's actions
(30_encoding.md R111, R112; 70_reset_and_hazards.md R264). -/

namespace Sys2Proof.Machine

open Sys2Proof

/-- The registers of the window (R22). -/
inductive HostReg where
  | cmd
  | status
  | clipCtrl
  | destX
  | destY
  | maxW
  | maxH
  | codecA
  | codecB
  | codecF
  | codecRes
  | infoWidth
  | infoHeight
  | infoBpp
  | infoFileSize
  | infoPalColors
deriving DecidableEq, Repr

/-- The offset of each register, in the order of the table of R22. -/
def regMap : List (BitVec 8 × HostReg) :=
  [(0x00, .cmd), (0x04, .status), (0x08, .clipCtrl), (0x0C, .destX), (0x10, .destY), (0x14, .maxW), (0x18, .maxH),
   (0x1C, .codecA), (0x20, .codecB), (0x24, .codecF), (0x28, .codecRes), (0x2C, .infoWidth), (0x30, .infoHeight),
   (0x34, .infoBpp), (0x38, .infoFileSize), (0x3C, .infoPalColors)]

/-- The register at a word offset; "Every offset not listed (0x40 to 0xFC) is reserved" (R22). -/
def HostReg.atOffset (off : BitVec 8) : Option HostReg := regMap.lookup off

/-- The value a register reads as (R22 to R36). CMD is write-only and reads 0; CLIP_CTRL[31:2] read 0 (R28). -/
def Regs.value (r : Regs) : HostReg → Word
  | .cmd => 0
  | .status => r.status.word
  | .clipCtrl => r.clipCtrl.setWidth 32
  | .destX => r.destX
  | .destY => r.destY
  | .maxW => r.maxW
  | .maxH => r.maxH
  | .codecA => r.codecA
  | .codecB => r.codecB
  | .codecF => r.codecF
  | .codecRes => r.codecRes
  | .infoWidth => r.infoWidth
  | .infoHeight => r.infoHeight
  | .infoBpp => r.infoBpp
  | .infoFileSize => r.infoFileSize
  | .infoPalColors => r.infoPalColors

/-- A host read of an aligned word offset; a reserved offset reads 0 (R22). -/
def Regs.readOffset (r : Regs) (off : BitVec 8) : Word :=
  match HostReg.atOffset off with
  | some g => r.value g
  | none => 0

/-- The registers after a write to a read-write register; a read-only one keeps its value (R22, R36). CMD holds no
state (R22a): its write is `writeCmd`. -/
def Regs.store (r : Regs) (v : Word) : HostReg → Regs
  | .clipCtrl => { r with clipCtrl := v.setWidth 2 }
  | .destX => { r with destX := v }
  | .destY => { r with destY := v }
  | .maxW => { r with maxW := v }
  | .maxH => { r with maxH := v }
  | .codecA => { r with codecA := v }
  | .codecB => { r with codecB := v }
  | .codecF => { r with codecF := v }
  | .cmd => r
  | .status => r
  | .codecRes => r
  | .infoWidth => r
  | .infoHeight => r
  | .infoBpp => r
  | .infoFileSize => r
  | .infoPalColors => r

/-- A write to CMD (R22a): the command of the word, or the ILLEGAL outcome (R93). -/
def writeCmd (s : State) (w : Word) : StepResult :=
  match decode w with
  | .ok i => exec i s
  | .error _ => illegalCommand s

/-- A write to an operand register: no effect while BUSY = 1 (R47). -/
def State.storeReg (s : State) (g : HostReg) (v : Word) : State :=
  if s.regs.status.busy then s else { s with regs := s.regs.store v g }

/-- A host write of an aligned word offset; a reserved offset takes no effect (R22). -/
def writeOffset (s : State) (off : BitVec 8) (v : Word) : StepResult :=
  match HostReg.atOffset off with
  | some .cmd => writeCmd s v
  | some g => .next (s.storeReg g v)
  | none => .next s

/-- A host access the interface has: 32 bits wide at a multiple of 4 (R72). -/
def legalAccess (size : AccessSize) (off : BitVec 8) : Bool := size == .bits32 && off.toNat % 4 == 0

/-- The host has read `v` at `off`; a read has no other effect (R274). -/
def State.recordRead (s : State) (off : BitVec 8) (v : Word) : State := { s with reads := s.reads ++ [⟨off, v⟩] }

/-- A host read (R72, R111). -/
def hostRead (s : State) (size : AccessSize) (off : BitVec 8) : StepResult :=
  if legalAccess size off then .next (s.recordRead off (s.regs.readOffset off)) else .refused .hostAccess

/-- A host write (R72, R111). -/
def hostWrite (s : State) (size : AccessSize) (off : BitVec 8) (v : Word) : StepResult :=
  if legalAccess size off then writeOffset s off v else .refused .hostAccess

/-- The offset of STATUS (R22), which `WAIT` reads (R112). -/
def statusOffset : BitVec 8 := 0x04

/-- The offset of CMD (R22). -/
def cmdOffset : BitVec 8 := 0x00

/-- The host takes the next action of its program; `rest` is what follows it. A `WAIT` reads STATUS and stays in the
program until bit 0 reads 0 (R112). A binding is taken at once, a command running or not, and replaces what was
bound, the content of an earlier surface included. DESIGN CHOICE, assumptions 16, 29 and 30. -/
def hostAct (s : State) (a : HostAction) (rest : List HostAction) : StepResult :=
  match a with
  | .read size off => hostRead { s with prog := rest } size off
  | .write size off v => hostWrite { s with prog := rest } size off v
  | .wait =>
    let t := s.recordRead statusOffset s.regs.status.word
    if s.regs.status.word.getLsbD 0 then .next t else .next { t with prog := rest }
  | .bindSource src => .next { s with prog := rest, src := src }
  | .bindSurface content plan => .next { s with prog := rest, surf := ⟨surfaceOf content, plan⟩ }

/-- One step of the host: its program's next action, or nothing where the program has none left (R277, R278). -/
def hostStep (s : State) : StepResult :=
  match s.prog with
  | [] => .next s
  | a :: rest => hostAct s a rest

/-- The access that issues the command word `w`: `WR CMD, w` (R111). -/
def cmdWrite (w : Word) : HostAction := .write .bits32 cmdOffset w

/-- `s` with the CMD write of `w` as the host's next action, and the host as the next to move (assumption 14). -/
def State.withCmdWrite (s : State) (w : Word) : State :=
  { s with prog := cmdWrite w :: s.prog, sched := .host :: s.sched }

/-! ## The lines of a host program (R111, R112) -/

/-- `WR <reg>, <value>` at a word offset (R111). -/
def asmWrite (off : BitVec 8) (v : Word) : HostAction := .write .bits32 off v

/-- `RD <reg>` at a word offset (R111). -/
def asmRead (off : BitVec 8) : HostAction := .read .bits32 off

/-- A mnemonic: `WR CMD, <word of R91>` (R111). -/
def asmCommand (i : Instr) : HostAction := cmdWrite (encode i)

/-- `CLIP <w>, <h>` (R112). -/
def asmClip (w h : Word) : List HostAction := [asmWrite 0x14 w, asmWrite 0x18 h, asmWrite 0x08 0x3]

/-- `CLIPW <w>` (R112). -/
def asmClipW (w : Word) : List HostAction := [asmWrite 0x14 w, asmWrite 0x08 0x1]

/-- `CLIPH <h>` (R112). -/
def asmClipH (h : Word) : List HostAction := [asmWrite 0x18 h, asmWrite 0x08 0x2]

/-- `NOCLIP` (R112). -/
def asmNoClip : List HostAction := [asmWrite 0x08 0x0]

/-- `AT <x>, <y>` (R112). -/
def asmAt (x y : Word) : List HostAction := [asmWrite 0x0C x, asmWrite 0x10 y]

/-- `RGB <r>, <g>, <b>` (R112): `WR CODEC_A, (b << 16) | (g << 8) | r`. -/
def asmRgb (r g b : Byte) : List HostAction := [asmWrite 0x1C ((0 : BitVec 8) ++ b ++ g ++ r)]

/-- `FRAC <q>` (R112), for `q * 65536 = f`. -/
def asmFrac (f : Int) : List HostAction := [asmWrite 0x24 (BitVec.ofInt 32 f)]

end Sys2Proof.Machine
end

