-- ==== Sys2Proof/Machine/Step.lean ====
section
/-! DEFINITION. One step of the machine: the agent whose turn it is moves (70_reset_and_hazards.md R275, R277). -/

namespace Sys2Proof.Machine

open Sys2Proof

/-- One step: a host access, a step of BMPDEC's sequencer, or the reset input asserted. -/
def step (s : State) : Host.Outcome State Fault Refusal :=
  match s.turn with
  | .host => hostStep s.tick
  | .block => blockStep s.tick
  | .reset => .next s.tick.resetBlock

/-- `s` with the command word of an opcode-table row as what the very next step runs: BMPDEC fetches nothing (R21,
R85), so it is the host's next access, a write of the word to CMD. -/
def State.withFetchWord (s : State) (nbits w : Nat) : State := s.withCmdWrite (tableWord nbits w)

end Sys2Proof.Machine
end

