-- ==== Sys2Proof/Machine/Pseudocode.lean ====
section
/-! DEFINITION. The pseudocode of INSPECT (41_decoder.md R171) and DECODE (R186) read as ONE program over a reference
file source (20_memory.md R67), with no sequencer, no palette RAM and no row buffer: what statements compare the
machine's steps with. Each program gives the events it issues, RELEASE included (R232), and its outcome. -/

namespace Sys2Proof.Machine

open Sys2Proof

/-- `SrcRead(n)` from position `pos` of a file `S` under the reference model (R67). -/
def fileRead (S : List Byte) (pos n : Nat) : List Byte := (S.drop pos).take n

/-- The parsed header (R103, R104). -/
structure ImageHeader where
  fileSize : Word
  pixOff : Word
  width : Word
  height : Word
  planes : BitVec 16
  bpp : BitVec 16
  comp : Word
  clrUsed : Word
deriving DecidableEq, Repr

/-- The fields of the two headers (R164, R167). -/
def parseHeader (p : Params) (fh ih : List Byte) : ImageHeader where
  fileSize := le32 fh 2
  pixOff := le32 fh 10
  width := le32 ih 4
  height := le32 ih 8
  planes := le16 ih 12
  bpp := le16 ih 14
  comp := le32 ih 16
  clrUsed := le32 ih (clrUsedIndex p)

/-- Steps 0 to 3, shared by INSPECT and DECODE (R161 to R168): the events, and the header or the failure. -/
def headerProgram (p : Params) (S : List Byte) : List Event × Except CmdOutcome ImageHeader :=
  let fh := fileRead S 0 14
  let e1 := [Event.seek 0 .ok, .read 14 (.bytes fh)]
  if fh.length < 2 ∨ byteAt fh 0 ≠ p.magic0 ∨ byteAt fh 1 ≠ p.magic1 then (e1, .error (.format .badSignature))
  else if fh.length < 14 then (e1, .error (.unsupported .shortHeader))
  else
    let ih := fileRead S 14 40
    let e2 := e1 ++ [.read 40 (.bytes ih)]
    if ih.length < 40 then (e2, .error (.unsupported .shortHeader))
    else
      let h := parseHeader p fh ih
      if h.bpp ≠ 8 ∧ h.bpp ≠ 24 then (e2, .error (.format .unsupportedDepth))
      else if h.comp ≠ 0 then (e2, .error (.format .compressionUnsupported))
      else if h.planes ≠ 1 then (e2, .error (.format .badPlaneCount))
      else (e2, .ok h)

/-- INSPECT (R171): the events, and the header it reports or its failure. -/
def inspectProgram (p : Params) (S : List Byte) : List Event × Except CmdOutcome ImageHeader :=
  ((headerProgram p S).1 ++ [.release], (headerProgram p S).2)

/-- What the row loop of R186 needs, fixed before it starts: the file, the first pixel byte, the height, the row
stride, the clip region's size, its placement, and the colour of a column of a row. -/
structure RowJob where
  pixOff : Word
  height : Word
  rowStride : Nat
  loadW : Nat
  dx : Int
  dy : Int

/-- The SurfSet events of one row (R181 to R183). -/
def rowPixels (j : RowJob) (color : List Byte → Nat → Color16) (row : Nat) (rb : List Byte) : List Event :=
  (List.range j.loadW).map fun (col : Nat) => .surfSet (j.dx + (col : Int)) (j.dy + (row : Int)) (color rb col)

/-- The row loop of R186 (R179, R180): `left` rows from destination row `row` on. -/
def rowsProgram (S : List Byte) (j : RowJob) (color : List Byte → Nat → Color16) :
    (left row : Nat) → List Event × CmdOutcome
  | 0, _ => ([], .ok)
  | left + 1, row =>
    let o := rowOffset j.pixOff j.height j.rowStride row
    let rb := fileRead S o j.rowStride
    let e := [Event.seek o .ok, .read j.rowStride (.bytes rb)]
    if rb.length < j.rowStride then (e, .format .truncatedRow)
    else
      let r := rowsProgram S j color left (row + 1)
      (e ++ rowPixels j color row rb ++ r.1, r.2)

/-- The colour of an 8-bit pixel (R181), from the palette bytes: entry `idx` is the four bytes at 4 * idx (R107). -/
def indexedPixel (n : Nat) (pb : List Byte) (rb : List Byte) (col : Nat) : Color16 :=
  let idx := (byteAt rb col).toNat
  if idx < n then packColor (bgrAt pb (4 * idx)) else fallbackColor

/-- The colour of a 24-bit pixel (R182). -/
def trueColorPixel (rb : List Byte) (col : Nat) : Color16 := packColor (bgrAt rb (3 * col))

/-- DECODE after its validation (R172 to R185): the events from the palette on, and the outcome. -/
def transferProgram (p : Params) (r : Regs) (S : List Byte) (h : ImageHeader) : List Event × CmdOutcome :=
  if h.width.toInt < 0 ∨ h.height.toInt < 0 then ([], .unsupported .negativeDimension)
  else
    let rowStride := rowStrideOf h.width (bytesPerPixel h.bpp)
    if p.rowBufMax < rowStride then ([], .unsupported .rowTooLong)
    else
      let loadW := clipLength (r.clipCtrl.getLsbD 0) h.width r.maxW
      let loadH := clipLength (r.clipCtrl.getLsbD 1) h.height r.maxH
      let j : RowJob := ⟨h.pixOff, h.height, rowStride, loadW.toNat, r.destX.toInt, r.destY.toInt⟩
      if h.bpp = 8 then
        let n := paletteCount h.clrUsed
        let pb := fileRead S 54 (4 * n)
        let e := [Event.seek 54 .ok, .read (4 * n) (.bytes pb)]
        if pb.length < 4 * n then (e, .format .truncatedPalette)
        else
          let q := rowsProgram S j (indexedPixel n pb) loadH.toNat 0
          (e ++ q.1, q.2)
      else rowsProgram S j trueColorPixel loadH.toNat 0

/-- DECODE (R186): the events, and the outcome. -/
def decodeProgram (p : Params) (r : Regs) (S : List Byte) : List Event × CmdOutcome :=
  match (headerProgram p S).2 with
  | .error o => ((headerProgram p S).1 ++ [.release], o)
  | .ok h => ((headerProgram p S).1 ++ (transferProgram p r S h).1 ++ [.release], (transferProgram p r S h).2)

/-- The registers INSPECT leaves (R35, R170, R231): STATUS, and the INFO registers where it succeeds. -/
def inspectRegs (r : Regs) (result : Except CmdOutcome ImageHeader) : Regs :=
  match result with
  | .error o => { r with status := Status.completed o }
  | .ok h =>
    { r with
      status := Status.completed .ok
      infoWidth := h.width
      infoHeight := h.height
      infoBpp := h.bpp.setWidth 32
      infoFileSize := h.fileSize
      infoPalColors := if h.bpp = 8 then (if 0 < h.clrUsed.toNat then h.clrUsed else 256) else 0 }

/-- The content of a last-write-wins surface after these events (R278). -/
def surfaceAfter (cells : List SurfCell) (events : List Event) : List SurfCell :=
  events.foldl (fun m e => match e with
    | .surfSet x y c => surfaceWrite m ⟨x, y, c⟩
    | .seek _ _ => m
    | .read _ _ => m
    | .release => m) cells

end Sys2Proof.Machine
end

