-- ==== Sys2Proof/Safety.lean ====
section
/-! DEFINITION. What a safe run is: the invariant of the state, the bound on what leaves the ports, the progress of a
command, and what of the scratch is live. -/

namespace Sys2Proof.Machine

open Sys2Proof

/-! ## The invariant -/

/-- A STATUS the block can show (R23 to R27, R102): running, or the reset value, or a completed outcome. -/
def Status.legal (t : Status) : Prop :=
  t = Status.running ∨ t = Status.reset ∨ ∃ o : CmdOutcome, t = Status.completed o

/-- The outcomes an INSPECT can end with (R171). -/
def inspectOutcome : CmdOutcome → Prop
  | .ok => True
  | .ioErr => True
  | .format .badSignature => True
  | .format .unsupportedDepth => True
  | .format .compressionUnsupported => True
  | .format .badPlaneCount => True
  | .format .truncatedPalette => False
  | .format .truncatedRow => False
  | .unsupported .shortHeader => True
  | .unsupported .negativeDimension => False
  | .unsupported .rowTooLong => False
  | .illegal => False

/-- What holds once DECODE has started its transfer (R168, R172 to R174). -/
structure Sequencer.Transferring (st : Sequencer) (p : Params) : Prop where
  op : st.op = .decode
  bpp : st.bpp = 8 ∨ st.bpp = 24
  comp : st.comp = 0
  planes : st.planes = 1
  width : 0 ≤ st.width.toInt
  height : 0 ≤ st.height.toInt
  bpg : st.bpg = bytesPerPixel st.bpp
  rowStride : st.rowStride = rowStrideOf st.width st.bpg
  fits : st.rowStride ≤ p.rowBufMax

/-- What holds in the row loop of DECODE (R176, R178, R179). -/
structure Sequencer.InRows (st : Sequencer) (p : Params) : Prop extends Sequencer.Transferring st p where
  palLen : st.bpp = 8 → st.palLen = paletteCount st.clrUsed
  loadW : st.loadW ≤ st.width.toInt
  loadH : st.loadH ≤ st.height.toInt
  row : (st.row : Int) < st.loadH

/-- What holds of the latches of a running command, by the event that comes next. -/
def Sequencer.Running (st : Sequencer) (p : Params) : Prop :=
  match st.step with
  | .seekFH => True
  | .readFH => True
  | .readIH => True
  | .seekPal => st.Transferring p ∧ st.bpp = 8
  | .readPal => st.Transferring p ∧ st.bpp = 8
  | .rowSeek => st.InRows p
  | .rowRead => st.InRows p
  | .pixel => st.InRows p ∧ (st.col : Int) < st.loadW
  | .release => st.outcome ≠ .illegal ∧ (st.op = .inspect → inspectOutcome st.outcome)
  | .complete => st.outcome ≠ .illegal ∧ (st.op = .inspect → inspectOutcome st.outcome)

/-- The invariant of the machine. -/
structure Invariant (s : State) : Prop where
  /-- The parameters are legal (R10). -/
  params : s.params.wellFormed
  /-- STATUS shows a legal value (R23 to R27, R102). -/
  status : s.regs.status.legal
  /-- "`ST.op` ... NONE exactly when STATUS.BUSY = 0" (R37). -/
  busy : s.regs.status.busy = true ↔ s.st.op ≠ .none
  /-- The latches of a running command (R37 to R40). -/
  running : s.st.op ≠ .none → s.st.Running s.params
  /-- ROWBUF is in canonical form and within P_ROWBUF_MAX (R42). -/
  rowBuf : s.rowBuf.wf
  rowBufBound : ∀ c ∈ s.rowBuf, c.1 < s.params.rowBufMax
  /-- The surface's content is in canonical form. -/
  surface : surfaceWf s.surf.cells

/-! ## What leaves the ports -/

/-- An event whose values fit the ports (R62, R64, R71): offsets below 2^64, read lengths at most 2^34 - 4, and
coordinates from -2^31 to 2^32 - 3. -/
def Event.fits : Event → Prop
  | .seek o _ => o < 2 ^ 64
  | .read n _ => n ≤ 2 ^ 34 - 4
  | .release => True
  | .surfSet x y _ => (-2 ^ 31 ≤ x ∧ x ≤ 2 ^ 32 - 3) ∧ (-2 ^ 31 ≤ y ∧ y ≤ 2 ^ 32 - 3)

/-- The coordinates written by a list of events, in order. -/
def writtenCoords (events : List Event) : List (Int × Int) :=
  events.filterMap fun e => match e with
    | .surfSet x y _ => some (x, y)
    | .seek _ _ => none
    | .read _ _ => none
    | .release => none

/-- The first `k` rows of the clip region, row-major (R187). -/
def regionRows (st : Sequencer) (k : Nat) : List (Int × Int) :=
  (List.range k).flatMap fun (row : Nat) =>
    (List.range st.loadW.toNat).map fun (col : Nat) => (st.dx.toInt + (col : Int), st.dy.toInt + (row : Int))

/-- The first `n` columns of row `row` of the clip region. -/
def regionColumns (st : Sequencer) (row n : Nat) : List (Int × Int) :=
  (List.range n).map fun (col : Nat) => (st.dx.toInt + (col : Int), st.dy.toInt + (row : Int))

/-- What an ended DECODE has written (R187, R188): the whole region, or, if it failed, some number of whole rows, fewer
than the region has. -/
def EndedDecodeWrote (st : Sequencer) (coords : List (Int × Int)) : Prop :=
  (st.outcome = .ok → coords = regionRows st st.loadH.toNat) ∧
  (st.outcome ≠ .ok → ∃ k, coords = regionRows st k ∧ (k = 0 ∨ (k : Int) < st.loadH))

/-- What the running DECODE has written, `base` events having come before its issue (R187, R188): nothing before the
rows; every column of the rows before ST.row and, between the pixels of a row, the columns before ST.col; and when
it ends OK the whole region, when it fails some number of whole rows, fewer than the region has. -/
def DecodeWrote (base : Nat) (s : State) : Prop :=
  let coords := writtenCoords (s.trace.drop base)
  match s.st.step with
  | .seekFH => coords = []
  | .readFH => coords = []
  | .readIH => coords = []
  | .seekPal => coords = []
  | .readPal => coords = []
  | .rowSeek => coords = regionRows s.st s.st.row
  | .rowRead => coords = regionRows s.st s.st.row
  | .pixel => coords = regionRows s.st s.st.row ++ regionColumns s.st s.st.row s.st.col
  | .release => EndedDecodeWrote s.st coords
  | .complete => EndedDecodeWrote s.st coords

/-! ## Answers and progress -/

/-- The source answers a READ of `n` bytes with `b`, within the contract of R63. -/
def State.AnswersRead (s : State) (n : Nat) (b : List Byte) : Prop :=
  b.length ≤ n ∧ (s.srcDraw = .reference ∧ b = s.src.slice n ∨ s.srcDraw = .bytes b)

/-- The source answers a SEEK with OK (R62). -/
def State.AnswersSeek (s : State) : Prop := s.srcDraw ≠ .silent ∧ s.srcDraw ≠ .ioErr

/-- The event a running command records when its next request, a SEEK or a READ, is answered IOErr (R227); none where
its next event is no request. -/
def State.failedRequest (s : State) : Option Event :=
  match s.st.step with
  | .seekFH => some (.seek 0 .ioErr)
  | .readFH => some (.read 14 .ioErr)
  | .readIH => some (.read 40 .ioErr)
  | .seekPal => some (.seek 54 .ioErr)
  | .readPal => some (.read (4 * paletteCount s.st.clrUsed) .ioErr)
  | .rowSeek => some (.seek (rowOffset s.st.pixOff s.st.height s.st.rowStride s.st.row) .ioErr)
  | .rowRead => some (.read s.st.rowStride .ioErr)
  | .pixel => none
  | .release => none
  | .complete => none

/-- The steps a running command still needs at most, every request being answered, by the event that comes next: the
rows left, of W + 2 events each, and RELEASE and completion (R276). -/
def Sequencer.stepsLeft (st : Sequencer) : Nat :=
  let w := st.loadW.toNat
  let rowsLeft := (st.loadH - st.row).toNat
  match st.step with
  | .seekFH => 2 ^ 64 + 5
  | .readFH => 2 ^ 64 + 4
  | .readIH => 2 ^ 64 + 3
  | .seekPal => 2 ^ 64 + 2
  | .readPal => 2 ^ 64 + 1
  | .rowSeek => rowsLeft * (w + 2) + 2
  | .rowRead => rowsLeft * (w + 2) + 1
  | .pixel => (rowsLeft - 1) * (w + 2) + (w - st.col) + 2
  | .release => 2
  | .complete => 1

/-- The steps the block still needs at most: none while idle. -/
def State.variant (s : State) : Nat :=
  match s.st.op with
  | .none => 0
  | .inspect => s.st.stepsLeft
  | .decode => s.st.stepsLeft

/-- For the next `n` steps only the block moves, the source answers each request as the reference file model of R67
does, and the surface accepts each write. -/
def State.Cooperates (s : State) (n : Nat) : Prop :=
  s.sched.take n = List.replicate n .block ∧
  s.src.plan.take n = List.replicate n .reference ∧
  s.surf.plan.take n = List.replicate n .accepts

/-! ## The end of a run -/

/-- "A run has ended when the host program has no access left and ST.op = NONE" (R278). -/
def State.Ended (s : State) : Prop := s.prog = [] ∧ s.st.op = .none

/-- The observation at the end of a run (R278): the host registers, every event with its arguments and answers, and the
surface's content. PAL, ROWBUF and the latches are not observed (R279). -/
structure Observation where
  regs : Regs
  trace : List Event
  cells : List SurfCell
deriving DecidableEq, Repr

/-- What is observed of a state (R278). The surface is the one bound last: of an earlier one only the SurfSet events
in the trace are observed. DESIGN CHOICE, assumption 29. -/
def State.observe (s : State) : Observation := ⟨s.regs, s.trace, s.surf.cells⟩

/-! ## Live scratch -/

/-- The latches a DECODE still reads once it has started its transfer. -/
structure TransferAgree (s t : State) : Prop where
  dx : s.st.dx = t.st.dx
  dy : s.st.dy = t.st.dy
  pixOff : s.st.pixOff = t.st.pixOff
  width : s.st.width = t.st.width
  height : s.st.height = t.st.height
  bpp : s.st.bpp = t.st.bpp
  clrUsed : s.st.clrUsed = t.st.clrUsed
  rowStride : s.st.rowStride = t.st.rowStride

/-- What a DECODE still reads in its row loop: of PAL, only the entries it has built. -/
structure RowsAgree (s t : State) : Prop extends TransferAgree s t where
  loadW : s.st.loadW = t.st.loadW
  loadH : s.st.loadH = t.st.loadH
  row : s.st.row = t.st.row
  palLen : s.st.bpp = 8 → s.st.palLen = t.st.palLen
  pal : s.st.bpp = 8 → ∀ k : Fin 256, k.val < s.st.palLen → s.pal[k] = t.pal[k]

/-- What the running command still reads of its scratch, by the event that comes next. -/
def LiveScratchAgrees (s t : State) : Prop :=
  match s.st.step with
  | .seekFH => s.st.op = .decode → s.st.dx = t.st.dx ∧ s.st.dy = t.st.dy
  | .readFH => s.st.op = .decode → s.st.dx = t.st.dx ∧ s.st.dy = t.st.dy
  | .readIH =>
    (s.st.op = .decode → s.st.dx = t.st.dx ∧ s.st.dy = t.st.dy) ∧
    s.st.fileSize = t.st.fileSize ∧ s.st.pixOff = t.st.pixOff
  | .seekPal => TransferAgree s t
  | .readPal => TransferAgree s t
  | .rowSeek => RowsAgree s t
  | .rowRead => RowsAgree s t
  | .pixel =>
    RowsAgree s t ∧ s.st.col = t.st.col ∧
    ∀ i : Nat, (i : Int) < s.st.loadW * s.st.bpg → s.rowBuf.read i = t.rowBuf.read i
  | .release =>
    s.st.outcome = t.st.outcome ∧
    (s.st.op = .inspect → s.st.outcome = .ok →
      s.st.width = t.st.width ∧ s.st.height = t.st.height ∧ s.st.bpp = t.st.bpp ∧
      s.st.fileSize = t.st.fileSize ∧ s.st.clrUsed = t.st.clrUsed)
  | .complete =>
    s.st.outcome = t.st.outcome ∧
    (s.st.op = .inspect → s.st.outcome = .ok →
      s.st.width = t.st.width ∧ s.st.height = t.st.height ∧ s.st.bpp = t.st.bpp ∧
      s.st.fileSize = t.st.fileSize ∧ s.st.clrUsed = t.st.clrUsed)

/-- Two states that differ only in unspecified scratch: every register, the ports, the trace and the host agree, and
of PAL, ROWBUF, the latches and the counters only what the running command has written and still reads (R45, R263). -/
structure SameButScratch (s t : State) : Prop where
  params : s.params = t.params
  regs : s.regs = t.regs
  src : s.src = t.src
  surf : s.surf = t.surf
  trace : s.trace = t.trace
  prog : s.prog = t.prog
  reads : s.reads = t.reads
  sched : s.sched = t.sched
  ticks : s.ticks = t.ticks
  op : s.st.op = t.st.op
  step : s.st.op ≠ .none → s.st.step = t.st.step
  live : s.st.op ≠ .none → LiveScratchAgrees s t

/-- Two results of a step that differ only in unspecified scratch. -/
def SameResult : StepResult → StepResult → Prop
  | .next s, .next t => SameButScratch s t
  | .fault a, .fault b => a = b
  | .refused a, .refused b => a = b
  | .next _, .fault _ => False
  | .next _, .refused _ => False
  | .fault _, .next _ => False
  | .fault _, .refused _ => False
  | .refused _, .next _ => False
  | .refused _, .fault _ => False

end Sys2Proof.Machine
end

