-- ==== Sys2Proof/Certificates/Slice0/Obligations.lean ====
section
/-! DEFINITION. The statements about BMPDEC that the provers are given. Each docstring names the rules of spec/ it
formalises. -/

section

open Sys2Proof Sys2Proof.Machine

/-! ## Reset -/

/-- R46 (the values it specifies), R260, R262: from the reset state the host reads 0 at every aligned offset, and
nothing runs. -/
def Obligations.ResetRegistersReadZero : Prop :=
  (∀ off : BitVec 8, State.reset.regs.readOffset off = 0) ∧ State.reset.st.op = .none

/-- R261: a reset abandons a running command. The trace, the source, and the surface with the pixels already written
stay; STATUS reads 0; and the block, now idle, issues nothing more of the command. That the host's program, the source
and the surface survive a reset, and that the idle block then has a step that changes nothing, is the model's choice
(assumptions 20 and 15). -/
def Obligations.ResetAbandonsTheCommand : Prop :=
  ∀ s : State, s.turn = .reset →
    ∃ t, step s = .next t ∧ t.trace = s.trace ∧ t.src = s.src ∧ t.surf = s.surf ∧ t.params = s.params ∧
      t.prog = s.prog ∧ t.regs = Regs.reset ∧ t.regs.status.word = 0 ∧ t.st.op = .none ∧ blockStep t = .next t

/-- The reset state meets the invariant. The values the spec leaves open at reset are the model's choice (assumptions
2, 7 and 8). -/
def Obligations.ResetMeetsInv : Prop := Invariant State.reset

/-! ## The invariant, and what a step can end in -/

/-- R10, R23 to R27, R37 to R42, R102: every step keeps the invariant, whoever moves and whatever the source and the
surface answer. -/
def Obligations.StepKeepsInv : Prop :=
  ∀ s t : State, Invariant s → step s = .next t → Invariant t

/-- R245: "BMPDEC itself never faults"; and a step is refused only for a host access outside the interface (R72) or for
an over-long answer (R63). -/
def Obligations.StepNeverFaults : Prop :=
  ∀ s : State, Invariant s →
    (∀ f, step s ≠ .fault f) ∧ ∀ r, step s = .refused r → r = .hostAccess ∨ r = .overlongAnswer

/-- R10: no step changes the parameters. R10 says that a model takes each as an argument; that they are a field of
State which no step changes is the model's choice (assumption 2). -/
def Obligations.StepKeepsParams : Prop :=
  ∀ s t : State, step s = .next t → t.params = s.params

/-! ## Command words and the host window -/

/-- A host turn whose next access writes the word of a command to CMD is `exec` of that command, at the state with the
access taken and the turn used up; the other turns are the block's step and reset (R22a, R275). That a step is the turn
of one agent, and that `withFetchWord` puts the word into the host's next access, is the model's choice (assumptions 1
and 14). -/
def Obligations.StepRunsTheDecodedCommand : Prop :=
  (∀ (s : State) (w : Word) (rest : List HostAction) (i : Instr),
    s.turn = .host → s.prog = cmdWrite w :: rest → decode w = .ok i →
      step s = exec i { s.tick with prog := rest }) ∧
  (∀ (s : State) (i : Instr) (w : Nat), decodeTableWord 32 w = some i →
      step (s.withFetchWord 32 w) = exec i { s with ticks := s.ticks + 1 }) ∧
  (∀ s : State, s.turn = .block → step s = blockStep s.tick) ∧
  (∀ s : State, s.turn = .reset → step s = .next s.tick.resetBlock)

/-- R91: the words of the seven commands, and words that are none. -/
def Obligations.CommandWordsDecode : Prop :=
  decode 0x00000001 = .ok .decode ∧ decode 0x00000002 = .ok .inspect ∧ decode 0x00000003 = .ok .pack ∧
  decode 0x00000004 = .ok .unpack ∧ decode 0x00000005 = .ok .blend ∧ decode 0x00000006 = .ok .darken ∧
  decode 0x00000007 = .ok .lighten ∧
  decode 0x00000000 = .error .reservedOpcode ∧ decode 0x00000008 = .error .reservedOpcode ∧
  decode 0x0000000F = .error .reservedOpcode ∧ decode 0x00000011 = .error .reservedBitsSet ∧
  decode 0x80000001 = .error .reservedBitsSet ∧ decode 0x00000103 = .error .reservedBitsSet

/-- Decoding an encoded command gives it back, and a word that decodes is the word of its command: each command has one
word and each legal word one command (R90, R91, R95). -/
def Obligations.DecodeEncodeAgree : Prop :=
  (∀ i : Instr, i.wellFormed = true ∧ decode (encode i) = .ok i) ∧
  ∀ (w : Word) (i : Instr), decode w = .ok i → w = encode i

/-- R92, R93, R94: a word is a command exactly when bits 31:4 are zero and OPC is 1 to 7; a word with a reserved bit set
is rejected as such whatever its OPC, and any other illegal word for its OPC. -/
def Obligations.IllegalWordsAreRejected : Prop :=
  ∀ w : Word,
    ((∃ i, decode w = .ok i) ↔ wellFormedWord w = true) ∧
    (decode w = .error .reservedBitsSet ↔ 16 ≤ w.toNat) ∧
    (decode w = .error .reservedOpcode ↔ w.toNat = 0 ∨ (8 ≤ w.toNat ∧ w.toNat ≤ 15))

/-- R93: a CMD write, while BUSY = 0, of a word that is no command sets DONE = 1, CLASS = 4, KIND = 0 with BUSY = 0
(STATUS reads 0x42), and changes nothing else. -/
def Obligations.IllegalCommandOnlySetsStatus : Prop :=
  ∀ (s : State) (w : Word) (rest : List HostAction),
    s.turn = .host → s.prog = cmdWrite w :: rest → s.regs.status.busy = false →
    ¬(w.toNat < 16 ∧ 1 ≤ w.toNat ∧ w.toNat ≤ 7) →
      step s = .next { s.tick with prog := rest, regs := { s.regs with status := ⟨false, true, 4, 0⟩ } } ∧
      (⟨false, true, 4, 0⟩ : Status).word = 0x42

/-- R22a, R47: issuing any command while BUSY = 1 changes nothing. -/
def Obligations.CommandWhileBusyHasNoEffect : Prop :=
  ∀ (i : Instr) (s : State), s.regs.status.busy = true → exec i s = .next s

/-- R47: while BUSY = 1 a write to any register, CMD included, has no effect; a read gives the current value of the
register, which for STATUS is BUSY = 1 and 0 in every other field. -/
def Obligations.BusyWritesAreIgnored : Prop :=
  ∀ (s : State) (rest : List HostAction) (off : BitVec 8), Invariant s → s.turn = .host → s.regs.status.busy = true →
    off.toNat % 4 = 0 →
    (∀ v, s.prog = .write .bits32 off v :: rest → step s = .next { s.tick with prog := rest }) ∧
    (s.prog = .read .bits32 off :: rest →
      step s = .next { s.tick with prog := rest, reads := s.reads ++ [⟨off, s.regs.readOffset off⟩] }) ∧
    s.regs.readOffset 0x04 = 0x00000001

/-- R22, R28 to R36: while BUSY = 0, a write to a read-write register is read back (of CLIP_CTRL, bits 1:0), a write to
STATUS, CODEC_RES, an INFO register or a reserved offset changes no register, and no write but one to CMD changes what
another offset reads. Nothing but the registers and the program changes. -/
def Obligations.IdleWriteStoresItsRegister : Prop :=
  ∀ (s : State) (rest : List HostAction) (off : BitVec 8) (v : Word),
    s.turn = .host → s.regs.status.busy = false → s.prog = .write .bits32 off v :: rest →
    off.toNat % 4 = 0 → off ≠ 0x00 →
    ∃ r : Regs, step s = .next { s.tick with prog := rest, regs := r } ∧ r.status = s.regs.status ∧
      (∀ o : BitVec 8, o ≠ off → r.readOffset o = s.regs.readOffset o) ∧
      (off = 0x08 → r.readOffset off = v &&& 0x3) ∧
      (0x0C ≤ off.toNat → off.toNat ≤ 0x24 → r.readOffset off = v) ∧
      (off = 0x04 ∨ 0x28 ≤ off.toNat → r = s.regs)

/-- R274: a host read of a register changes no register, no state of the block and no port, and issues no event; R22: CMD
and every reserved offset read 0. -/
def Obligations.ReadsHaveNoSideEffect : Prop :=
  ∀ (s : State) (rest : List HostAction) (off : BitVec 8),
    s.turn = .host → s.prog = .read .bits32 off :: rest → off.toNat % 4 = 0 →
    ∃ v, step s = .next { s.tick with prog := rest, reads := s.reads ++ [⟨off, v⟩] } ∧ v = s.regs.readOffset off ∧
      (off = 0x00 ∨ 0x40 ≤ off.toNat → v = 0)

/-- R72: a narrower, wider or misaligned access is refused. -/
def Obligations.OtherAccessesAreRefused : Prop :=
  ∀ (s : State) (rest : List HostAction) (size : AccessSize) (off : BitVec 8) (v : Word),
    s.turn = .host → (size ≠ .bits32 ∨ off.toNat % 4 ≠ 0) →
    (s.prog = .read size off :: rest → step s = .refused .hostAccess) ∧
    (s.prog = .write size off v :: rest → step s = .refused .hostAccess)

/-- R112: a WAIT reads STATUS and goes on once bit 0 reads 0; while a command runs it stays. That it is one action of the
host's program, repeated, is the model's choice (assumption 17). -/
def Obligations.WaitPollsStatus : Prop :=
  ∀ (s : State) (rest : List HostAction), s.turn = .host → s.prog = .wait :: rest →
    step s = .next { s.tick with
      prog := if s.regs.status.busy then .wait :: rest else rest
      reads := s.reads ++ [⟨0x04, s.regs.readOffset 0x04⟩] }

/-- R264, R265: the host binds a source or a surface to its port; nothing else of the block changes. The surface's
content is kept in canonical form, and each coordinate reads as the last pixel given for it. That binding is an
action of the host's program is the model's choice (assumption 16). So is that a binding is taken at once while a
command runs (assumption 30), and that a second surface replaces the content of the first (assumption 29). -/
def Obligations.HostBindsThePorts : Prop :=
  ∀ (s : State) (rest : List HostAction), s.turn = .host →
    (∀ src, s.prog = .bindSource src :: rest → step s = .next { s.tick with prog := rest, src := src }) ∧
    (∀ content plan, s.prog = .bindSurface content plan :: rest →
      ∃ cells, step s = .next { s.tick with prog := rest, surf := ⟨cells, plan⟩ } ∧ surfaceWf cells ∧
        ∀ x y : Int, surfaceRead cells x y =
          (content.reverse.find? fun c => c.x = x ∧ c.y = y).map (·.color))

/-- R23, R102: the STATUS words of every outcome, as 95_test_vectors.md lists them. -/
def Obligations.StatusWords : Prop :=
  (Status.completed .ok).word = 0x00000002 ∧
  (Status.completed (.format .badSignature)).word = 0x00000112 ∧
  (Status.completed (.format .unsupportedDepth)).word = 0x00000212 ∧
  (Status.completed (.format .compressionUnsupported)).word = 0x00000312 ∧
  (Status.completed (.format .badPlaneCount)).word = 0x00000412 ∧
  (Status.completed (.format .truncatedPalette)).word = 0x00000512 ∧
  (Status.completed (.format .truncatedRow)).word = 0x00000612 ∧
  (Status.completed .ioErr).word = 0x00000022 ∧
  (Status.completed (.unsupported .shortHeader)).word = 0x00000132 ∧
  (Status.completed (.unsupported .negativeDimension)).word = 0x00000232 ∧
  (Status.completed (.unsupported .rowTooLong)).word = 0x00000332 ∧
  (Status.completed .illegal).word = 0x00000042 ∧
  Status.running.word = 0x00000001

/-! ## Colours -/

/-- R130, R138, R139: PACK completes in the step of its CMD write; of n, red / 8 stands from bit 11, green / 4 from
bit 5 and blue / 8 from bit 0, and CODEC_RES gets n with its bytes exchanged. Nothing but CODEC_RES and STATUS
changes. The bit places 11, 5 and 0 are R100's, which marks them as general knowledge (assumption 26). -/
def Obligations.PackResult : Prop :=
  ∀ s : State, s.regs.status.busy = false →
    ∃ v : Word, exec .pack s = .next { s with regs := { s.regs with codecRes := v, status := ⟨false, true, 0, 0⟩ } } ∧
      ∃ n, n = s.regs.codecA.toNat % 256 / 8 * 2048 + s.regs.codecA.toNat / 256 % 256 / 4 * 32 +
          s.regs.codecA.toNat / 65536 % 256 / 8 ∧
        v.toNat = n % 256 * 256 + n / 256

/-- R131, R138, R140: UNPACK completes in the step of its CMD write; n is CODEC_A[15:0] with its bytes exchanged, and
CODEC_RES gets blue, green and red, each field of n with its low bits zero. Nothing but CODEC_RES and STATUS changes.
The bit places 11, 5 and 0 are R100's, which marks them as general knowledge (assumption 26). -/
def Obligations.UnpackResult : Prop :=
  ∀ s : State, s.regs.status.busy = false →
    ∃ v : Word, exec .unpack s = .next { s with regs := { s.regs with codecRes := v, status := ⟨false, true, 0, 0⟩ } } ∧
      ∃ n, n = s.regs.codecA.toNat % 256 * 256 + s.regs.codecA.toNat / 256 % 256 ∧
        v.toNat = n % 32 * 8 * 65536 + n / 32 % 64 * 4 * 256 + n / 2048 * 8

/-- R135, R138, R141: BLEND completes in the step of its CMD write. CODEC_RES gets c2 for F <= 0, c1 for F >= 65536, and
else the colour whose channels are the floor of the interpolated channels, less the bits packing discards. Nothing but
CODEC_RES and STATUS changes. -/
def Obligations.BlendResult : Prop :=
  ∀ s : State, s.regs.status.busy = false →
    ∃ c : Color16, exec .blend s =
        .next { s with regs := { s.regs with codecRes := c.setWidth 32, status := ⟨false, true, 0, 0⟩ } } ∧
      (s.regs.codecF.toInt ≤ 0 → c = s.regs.codecB.setWidth 16) ∧
      (65536 ≤ s.regs.codecF.toInt → c = s.regs.codecA.setWidth 16) ∧
      (0 < s.regs.codecF.toInt → s.regs.codecF.toInt < 65536 →
        ∃ mix : Byte → Byte → Int,
          (∀ a b, mix a b = (a.toNat * s.regs.codecF.toInt + b.toNat * (65536 - s.regs.codecF.toInt)).fdiv 65536) ∧
          (∃ p q : Rgb, p = unpackColor (s.regs.codecA.setWidth 16) ∧ q = unpackColor (s.regs.codecB.setWidth 16) ∧
            ((unpackColor c).r.toNat : Int) = mix p.r q.r / 8 * 8 ∧
            ((unpackColor c).g.toNat : Int) = mix p.g q.g / 4 * 4 ∧
            ((unpackColor c).b.toNat : Int) = mix p.b q.b / 8 * 8))

/-- R136, R138, R142: DARKEN completes in the step of its CMD write. CODEC_RES gets the colour whose channels are
clamp(floor(ch * F / 65536), 0, 255), less the bits packing discards. Nothing but CODEC_RES and STATUS changes. -/
def Obligations.DarkenResult : Prop :=
  ∀ s : State, s.regs.status.busy = false →
    ∃ c : Color16, exec .darken s =
        .next { s with regs := { s.regs with codecRes := c.setWidth 32, status := ⟨false, true, 0, 0⟩ } } ∧
      ∃ dark : Byte → Int,
        (∀ a, dark a = min (max ((a.toNat * s.regs.codecF.toInt).fdiv 65536) 0) 255) ∧
        ∃ p : Rgb, p = unpackColor (s.regs.codecA.setWidth 16) ∧
          ((unpackColor c).r.toNat : Int) = dark p.r / 8 * 8 ∧
          ((unpackColor c).g.toNat : Int) = dark p.g / 4 * 4 ∧
          ((unpackColor c).b.toNat : Int) = dark p.b / 8 * 8

/-- R137, R138, R143: LIGHTEN completes in the step of its CMD write. CODEC_RES gets the colour whose channels are
clamp(floor((ch * 65536 + (255 - ch) * F) / 65536), 0, 255), less the bits packing discards. Nothing but CODEC_RES and
STATUS changes. -/
def Obligations.LightenResult : Prop :=
  ∀ s : State, s.regs.status.busy = false →
    ∃ c : Color16, exec .lighten s =
        .next { s with regs := { s.regs with codecRes := c.setWidth 32, status := ⟨false, true, 0, 0⟩ } } ∧
      ∃ light : Byte → Int,
        (∀ a, light a =
          min (max ((a.toNat * 65536 + (255 - a.toNat) * s.regs.codecF.toInt).fdiv 65536) 0) 255) ∧
        ∃ p : Rgb, p = unpackColor (s.regs.codecA.setWidth 16) ∧
          ((unpackColor c).r.toNat : Int) = light p.r / 8 * 8 ∧
          ((unpackColor c).g.toNat : Int) = light p.g / 4 * 4 ∧
          ((unpackColor c).b.toNat : Int) = light p.b / 8 * 8

/-- R132: (a) packing an unpacked colour gives it back; (b) unpacking a packed triple masks its channels with 0xF8, 0xFC
and 0xF8; (c) each recovered channel is monotonic in the original; (d) black packs to 0x0000 and white to 0xFFFF. -/
def Obligations.PackUnpackLaws : Prop :=
  (∀ c : Color16, packColor (unpackColor c) = c) ∧
  (∀ p : Rgb, unpackColor (packColor p) = ⟨p.r &&& 0xF8, p.g &&& 0xFC, p.b &&& 0xF8⟩) ∧
  (∀ p q : Rgb,
    (p.r ≤ q.r → (unpackColor (packColor p)).r ≤ (unpackColor (packColor q)).r) ∧
    (p.g ≤ q.g → (unpackColor (packColor p)).g ≤ (unpackColor (packColor q)).g) ∧
    (p.b ≤ q.b → (unpackColor (packColor p)).b ≤ (unpackColor (packColor q)).b)) ∧
  packColor ⟨0, 0, 0⟩ = 0x0000 ∧ packColor ⟨255, 255, 255⟩ = 0xFFFF

/-- R133: the round trip loses at most 7 of red and blue and 3 of green and never adds, and each bound is reached. -/
def Obligations.RoundTripError : Prop :=
  (∀ p : Rgb, ∃ q : Rgb, q = unpackColor (packColor p) ∧
    (q.r.toNat ≤ p.r.toNat ∧ p.r.toNat - q.r.toNat ≤ 7) ∧
    (q.g.toNat ≤ p.g.toNat ∧ p.g.toNat - q.g.toNat ≤ 3) ∧
    (q.b.toNat ≤ p.b.toNat ∧ p.b.toNat - q.b.toNat ≤ 7)) ∧
  unpackColor (packColor ⟨7, 3, 7⟩) = ⟨0, 0, 0⟩

/-- R141, R142, R143, their corner cases: BLEND of equal colours gives that colour for every F; DARKEN by 1 and LIGHTEN
by 0 leave the colour; DARKEN by 0 or less gives 0x0000 and LIGHTEN by 1 or more 0xFFFF; DARKEN of 0xFFFF by more than 1
stays 0xFFFF. -/
def Obligations.ColourCornerCases : Prop :=
  (∀ (c : Color16) (f : Int), blendF c c f = c) ∧
  (∀ c : Color16, darkenF c 65536 = c ∧ lightenF c 0 = c) ∧
  (∀ (c : Color16) (f : Int), f ≤ 0 → darkenF c f = 0x0000) ∧
  (∀ (c : Color16) (f : Int), 65536 ≤ f → lightenF c f = 0xFFFF) ∧
  (∀ f : Int, 65536 < f → darkenF 0xFFFF f = 0xFFFF)

/-- R138: a codec command, whichever it is, completes in its step and touches neither a port nor the sequencer, the
palette or the row buffer; CODEC_RES and STATUS apart, no register changes. -/
def Obligations.CodecCommandsTouchNothingElse : Prop :=
  ∀ (i : Instr) (s : State), i ∈ [Instr.pack, .unpack, .blend, .darken, .lighten] → s.regs.status.busy = false →
    ∃ t, exec i s = .next t ∧
      t.st = s.st ∧ t.pal = s.pal ∧ t.rowBuf = s.rowBuf ∧ t.src = s.src ∧ t.surf = s.surf ∧ t.trace = s.trace ∧
      t.params = s.params ∧ t.regs.status = ⟨false, true, 0, 0⟩ ∧
      ∀ g : HostReg, g ≠ .status → g ≠ .codecRes → t.regs.value g = s.regs.value g

/-! ## Issue, ports and completion -/

/-- R160: the CMD write of INSPECT (0x00000002) or DECODE (0x00000001) sets STATUS to BUSY, starts the sequencer at
SEEK_FH and issues no event; DECODE latches the placement. Nothing else changes. -/
def Obligations.IssueStartsTheSequencer : Prop :=
  decode 0x00000002 = .ok .inspect ∧ decode 0x00000001 = .ok .decode ∧
  ∀ s : State, s.regs.status.busy = false →
    exec .inspect s =
      .next { s with
        regs := { s.regs with status := ⟨true, false, 0, 0⟩ }
        st := { s.st with op := .inspect, step := .seekFH } } ∧
    exec .decode s =
      .next { s with
        regs := { s.regs with status := ⟨true, false, 0, 0⟩ }
        st := { s.st with op := .decode, step := .seekFH, dx := s.regs.destX, dy := s.regs.destY } }

/-- R61, R64, R71, R77, R81: a step adds at most one event to the trace and never changes an earlier one, and every
value it sends fits its port: offsets below 2^64, lengths at most 2^34 - 4, coordinates from -2^31 to 2^32 - 3. -/
def Obligations.StepIssuesAtMostOneFittingEvent : Prop :=
  ∀ s t : State, Invariant s → step s = .next t →
    t.trace = s.trace ∨ ∃ e : Event, t.trace = s.trace ++ [e] ∧ e.fits

/-- R227: whatever request is answered IOErr, the command ends there with IOERR (CLASS 2, KIND 0): the event is
recorded, the next event is RELEASE, and nothing else of the block changes. That the source's position stays where it
was is the model's choice (assumption 27). -/
def Obligations.IoErrEndsTheCommand : Prop :=
  (Status.completed .ioErr = ⟨false, true, 2, 0⟩) ∧
  ∀ (s : State) (e : Event), s.st.op ≠ .none → s.failedRequest = some e → s.srcDraw = .ioErr →
    blockStep s = .next { s with
      src := { s.src with plan := s.src.plan.tail }
      trace := s.trace ++ [e]
      st := { s.st with outcome := .ioErr, step := .release } }

/-- R61, R245: while the source does not answer a request, or the surface a write, the block has no step: it issues
nothing and nothing of it changes. That such a step is taken at all, using up the agent's "silent" turn, is the model's
way of letting the block wait (assumptions 4 and 5). -/
def Obligations.UnansweredRequestsWait : Prop :=
  (∀ (s : State) (e : Event), s.st.op ≠ .none → s.failedRequest = some e → s.srcDraw = .silent →
    blockStep s = .next s.useSrcDraw) ∧
  (∀ s : State, Invariant s → s.st.op ≠ .none → s.st.step = .pixel → s.surfDraw = .silent →
    blockStep s = .next s.useSurfDraw)

/-- R63, R245: a READ answered with more bytes than it asked for is refused. -/
def Obligations.OverlongAnswersAreRefused : Prop :=
  ∀ (s : State) (n : Nat) (b : List Byte), s.st.op ≠ .none → s.failedRequest = some (.read n .ioErr) →
    s.srcDraw = .bytes b → n < b.length → blockStep s = .refused .overlongAnswer

/-- R231, R232: a command ends by keeping its outcome and setting ST.step to RELEASE, however it ends. It then issues
one RELEASE, whatever the outcome, and in one completion step STATUS gets the outcome, BUSY = 0 and DONE = 1; the
INFO registers are written, all five, only by an INSPECT that ended OK; ST.op is NONE; and nothing else changes.
`complete` is the model's name for the completion step (assumption 9). That RELEASE leaves the source in State as it
is is the model's choice (assumption 24, R67). -/
def Obligations.ReleaseThenCompletion : Prop :=
  (∀ (s : State) (k : FormatKind) (r : UnsupportedReason),
    raiseFormat s k = .next { s with st := { s.st with outcome := .format k, step := .release } } ∧
    raiseUnsupported s r = .next { s with st := { s.st with outcome := .unsupported r, step := .release } } ∧
    finishOk s = .next { s with st := { s.st with outcome := .ok, step := .release } }) ∧
  ∀ s : State, s.st.op ≠ .none →
    (s.st.step = .release →
      blockStep s = .next { s with trace := s.trace ++ [.release], st := { s.st with step := .complete } }) ∧
    (s.st.step = .complete →
      blockStep s = .next { s with
        regs := if s.st.op = .inspect ∧ s.st.outcome = .ok then
            { s.regs with
              status := ⟨false, true, 0, 0⟩
              infoWidth := s.st.width
              infoHeight := s.st.height
              infoBpp := s.st.bpp.setWidth 32
              infoFileSize := s.st.fileSize
              infoPalColors :=
                if s.st.bpp = 8 then (if 0 < s.st.clrUsed.toNat then s.st.clrUsed else 256) else 0 }
          else { s.regs with status := ⟨false, true, s.st.outcome.classCode, s.st.outcome.kindCode⟩ }
        st := { s.st with op := .none } })

/-- R35: the INFO registers change only in the completion step of an INSPECT that ended OK, or by reset. -/
def Obligations.InfoChangesOnlyAtInspectCompletion : Prop :=
  ∀ (s t : State) (g : HostReg), step s = .next t →
    g ∈ [HostReg.infoWidth, .infoHeight, .infoBpp, .infoFileSize, .infoPalColors] →
    t.regs.value g ≠ s.regs.value g →
      s.turn = .reset ∨
      (s.turn = .block ∧ s.st.op = .inspect ∧ s.st.step = .complete ∧ s.st.outcome = .ok)

/-- R34: CODEC_RES changes only by a CMD write of a codec command's word while BUSY = 0, or by reset. -/
def Obligations.CodecResChangesOnlyByCodecCommands : Prop :=
  ∀ s t : State, step s = .next t → t.regs.codecRes ≠ s.regs.codecRes →
    s.turn = .reset ∨
    (s.turn = .host ∧ s.regs.status.busy = false ∧ ∃ w rest, s.prog = cmdWrite w :: rest ∧
      3 ≤ w.toNat ∧ w.toNat ≤ 7)

/-- R23 to R25, R43: STATUS changes only at a CMD write while BUSY = 0, in a completion step, or by reset. -/
def Obligations.StatusChangesOnlyAtIssueAndCompletion : Prop :=
  ∀ s t : State, step s = .next t → t.regs.status ≠ s.regs.status →
    s.turn = .reset ∨
    (s.turn = .host ∧ s.regs.status.busy = false ∧ ∃ w rest, s.prog = cmdWrite w :: rest) ∨
    (s.turn = .block ∧ s.st.op ≠ .none ∧ s.st.step = .complete)

/-- R65, R68, R138, R170: only a running DECODE issues SurfSet, only a running INSPECT or DECODE issues a source request,
and each only in the block's own steps. -/
def Obligations.OnlyRunningCommandsIssueEvents : Prop :=
  ∀ (s t : State) (e : Event), Invariant s → step s = .next t → t.trace = s.trace ++ [e] →
    s.turn = .block ∧ s.st.op ≠ .none ∧ ((∃ x y c, e = .surfSet x y c) → s.st.op = .decode)

/-! ## The header -/

/-- R14: `le16` and `le32` are the little-endian numbers of two and four bytes. -/
def Obligations.LittleEndianAssembly : Prop :=
  ∀ (b : List Byte) (o : Nat),
    (le16 b o).toNat = (byteAt b o).toNat + 256 * (byteAt b (o + 1)).toNat ∧
    (le32 b o).toNat = (byteAt b o).toNat + 2 ^ 8 * (byteAt b (o + 1)).toNat +
      2 ^ 16 * (byteAt b (o + 2)).toNat + 2 ^ 24 * (byteAt b (o + 3)).toNat

/-- R161: the first event of every INSPECT and DECODE is SEEK(0), and READ_FH follows. -/
def Obligations.FirstEventSeeksToZero : Prop :=
  ∀ s : State, s.st.op ≠ .none → s.st.step = .seekFH → s.AnswersSeek →
    blockStep s = .next { s with
      src := { s.src with pos := 0, plan := s.src.plan.tail }
      trace := s.trace ++ [.seek 0 .ok]
      st := { s.st with step := .readFH } }

/-- R162, R163, R164: the answer of READ(14) must have the two signature bytes, else BadSignature; then 14 bytes, else
SHORT_HEADER; then fileSize and pixelDataOffset are latched, unchecked, and READ_IH follows with no seek. -/
def Obligations.FileHeaderIsChecked : Prop :=
  ∀ (s : State) (fh : List Byte), s.st.op ≠ .none → s.st.step = .readFH → s.AnswersRead 14 fh →
    (¬(fh[0]? = some s.params.magic0 ∧ fh[1]? = some s.params.magic1) →
      blockStep s = .next ((s.readDone 14 fh).endCommand (.format .badSignature))) ∧
    (fh[0]? = some s.params.magic0 → fh[1]? = some s.params.magic1 → fh.length < 14 →
      blockStep s = .next ((s.readDone 14 fh).endCommand (.unsupported .shortHeader))) ∧
    (fh[0]? = some s.params.magic0 → fh[1]? = some s.params.magic1 → fh.length = 14 →
      blockStep s = .next { s.readDone 14 fh with
        st := { s.st with fileSize := le32 fh 2, pixOff := le32 fh 10, step := .readIH } })

/-- R166, R167, R168, R170: the info header of INSPECT and of DECODE. A short answer is SHORT_HEADER; a whole one is
latched, colorsUsed from P_CLRUSED_OFF; then depth, compression and planes are tested in that order, the first failing
test deciding. An INSPECT whose header passes finishes OK, whatever its dimensions. -/
def Obligations.HeaderIsValidatedInOrder : Prop :=
  ∀ (s : State) (ih : List Byte), s.st.op ≠ .none → s.st.step = .readIH → s.AnswersRead 40 ih →
    (ih.length < 40 → blockStep s = .next ((s.readDone 40 ih).endCommand (.unsupported .shortHeader))) ∧
    (ih.length = 40 →
      ∃ st : Sequencer, st = { s.st with
          width := le32 ih 4, height := le32 ih 8, planes := le16 ih 12, bpp := le16 ih 14, comp := le32 ih 16
          clrUsed := le32 ih (match s.params.clrUsedOff with | .at42 => 28 | .at46 => 32) } ∧
        (le16 ih 14 ≠ 8 → le16 ih 14 ≠ 24 →
          blockStep s = .next { s.readDone 40 ih with
            st := { st with outcome := .format .unsupportedDepth, step := .release } }) ∧
        ((le16 ih 14 = 8 ∨ le16 ih 14 = 24) → le32 ih 16 ≠ 0 →
          blockStep s = .next { s.readDone 40 ih with
            st := { st with outcome := .format .compressionUnsupported, step := .release } }) ∧
        ((le16 ih 14 = 8 ∨ le16 ih 14 = 24) → le32 ih 16 = 0 → le16 ih 12 ≠ 1 →
          blockStep s = .next { s.readDone 40 ih with
            st := { st with outcome := .format .badPlaneCount, step := .release } }) ∧
        ((le16 ih 14 = 8 ∨ le16 ih 14 = 24) → le32 ih 16 = 0 → le16 ih 12 = 1 → s.st.op = .inspect →
          blockStep s = .next { s.readDone 40 ih with st := { st with outcome := .ok, step := .release } }))

/-- R167, R172, R173, R174, R175, R178, R179, R230 tests 10 and 11: a DECODE whose header passes R168, its whole
sequencer after the step. The header is latched. A negative width or height is NEGATIVE_DIMENSION; then the stride is
latched, and one above P_ROWBUF_MAX is ROW_TOO_LONG; then an 8-bit image goes to its palette. A 24-bit one latches the
clip region, the image shrunk by each bound CLIP_CTRL enables, and goes to its first row, or to its end where the region
has none (what ST.row then holds is not said: no step reads it). -/
def Obligations.DecodeChecksDimensionsAndStride : Prop :=
  ∀ (s : State) (ih : List Byte), s.st.op = .decode → s.st.step = .readIH → s.AnswersRead 40 ih → ih.length = 40 →
    (le16 ih 14 = 8 ∨ le16 ih 14 = 24) → le32 ih 16 = 0 → le16 ih 12 = 1 →
    ∃ (st : Sequencer) (bpg stride : Nat) (w h : Int),
      st = { s.st with
        width := le32 ih 4, height := le32 ih 8, planes := le16 ih 12, bpp := le16 ih 14, comp := le32 ih 16
        clrUsed := le32 ih (match s.params.clrUsedOff with | .at42 => 28 | .at46 => 32) } ∧
      bpg = (if le16 ih 14 = 8 then 1 else 3) ∧
      w = (if s.regs.clipCtrl.getLsbD 0 then min (le32 ih 4).toInt s.regs.maxW.toInt else (le32 ih 4).toInt) ∧
      h = (if s.regs.clipCtrl.getLsbD 1 then min (le32 ih 8).toInt s.regs.maxH.toInt else (le32 ih 8).toInt) ∧
      (((le32 ih 4).toInt < 0 ∨ (le32 ih 8).toInt < 0) →
        blockStep s = .next { s.readDone 40 ih with
          st := { st with outcome := .unsupported .negativeDimension, step := .release } }) ∧
      (0 ≤ (le32 ih 4).toInt → 0 ≤ (le32 ih 8).toInt →
        stride % 4 = 0 ∧ (le32 ih 4).toInt * bpg ≤ stride ∧ (stride : Int) ≤ (le32 ih 4).toInt * bpg + 3 ∧
        (s.params.rowBufMax < stride →
          blockStep s = .next { s.readDone 40 ih with
            st := { st with
              bpg := bpg, rowStride := stride, outcome := .unsupported .rowTooLong, step := .release } }) ∧
        (stride ≤ s.params.rowBufMax → le16 ih 14 = 8 →
          blockStep s = .next { s.readDone 40 ih with
            st := { st with bpg := bpg, rowStride := stride, step := .seekPal } }) ∧
        (stride ≤ s.params.rowBufMax → le16 ih 14 = 24 → 0 < h →
          blockStep s = .next { s.readDone 40 ih with
            st := { st with
              bpg := bpg, rowStride := stride, loadW := w, loadH := h, row := 0, step := .rowSeek } }) ∧
        (stride ≤ s.params.rowBufMax → le16 ih 14 = 24 → h ≤ 0 →
          ∃ row : Nat, blockStep s = .next { s.readDone 40 ih with
            st := { st with
              bpg := bpg, rowStride := stride, loadW := w, loadH := h, row := row, outcome := .ok
              step := .release } }))

/-- R105, R167: the info-header bytes other than width, height, planes, bitsPerPixel, compression and colorsUsed never
matter: two 40-byte answers that agree on those lead INSPECT and DECODE to the same latches, outcome and next event. -/
def Obligations.IgnoredHeaderBytesNeverMatter : Prop :=
  ∀ (s : State) (a b : List Byte), s.st.op ≠ .none → s.st.step = .readIH → a.length = 40 → b.length = 40 →
    (∀ i, (4 ≤ i ∧ i < 20) ∨ (s.params.clrUsedOff.fileOffset - 14 ≤ i ∧ i < s.params.clrUsedOff.fileOffset - 10) →
      a[i]? = b[i]?) →
    ∀ rest : List SrcDraw,
    ∃ t u : State,
      blockStep { s with src := { s.src with plan := .bytes a :: rest } } = .next t ∧
      blockStep { s with src := { s.src with plan := .bytes b :: rest } } = .next u ∧
      t.st = u.st ∧ t.regs = u.regs ∧ t.pal = u.pal ∧ t.rowBuf = u.rowBuf ∧ t.src = u.src

/-! ## The transfer -/

/-- R173: the row stride of a non-negative width is the row's bytes rounded up to a multiple of 4. -/
def Obligations.RowStrideRoundsUp : Prop :=
  ∀ (width : Word) (bpg : Nat), 0 ≤ width.toInt →
    (rowStrideOf width bpg : Int) = -((-(width.toInt * bpg)).fdiv 4) * 4 ∧
    width.toInt * bpg ≤ rowStrideOf width bpg ∧ (rowStrideOf width bpg : Int) ≤ width.toInt * bpg + 3

/-- R175, R176, R177, R178, R179, R185: the palette is sought at 54. A palette read short of 4 * N bytes is
TruncatedPalette. A whole one writes the entries below min(N, 256), each from its stored blue, green and red bytes,
leaves the others, and sets ST.palLen to N; in the same step the clip region is latched, the image shrunk by each bound
CLIP_CTRL enables, and the first row follows, or the end with OK where the region has no row (what ST.row then holds is
not said: no step reads it). Nothing else changes. N is colorsUsed, or 256 where that is 0. -/
def Obligations.PaletteIsBuilt : Prop :=
  (∀ s : State, s.st.op ≠ .none → s.st.step = .seekPal → s.AnswersSeek →
    blockStep s = .next { s with
      src := { s.src with pos := 54, plan := s.src.plan.tail }
      trace := s.trace ++ [.seek 54 .ok]
      st := { s.st with step := .readPal } }) ∧
  ∀ (s : State) (n : Nat) (pb : List Byte), s.st.op ≠ .none → s.st.step = .readPal →
    n = (if 0 < s.st.clrUsed.toNat then s.st.clrUsed.toNat else 256) → s.AnswersRead (4 * n) pb →
    (pb.length < 4 * n → blockStep s = .next ((s.readDone (4 * n) pb).endCommand (.format .truncatedPalette))) ∧
    (pb.length = 4 * n →
      ∃ (pal : Palette) (w h : Int),
        (∀ k : Fin 256,
          (k.val < n → pal[k] = packColor ⟨byteAt pb (4 * k + 2), byteAt pb (4 * k + 1), byteAt pb (4 * k)⟩) ∧
          (n ≤ k.val → pal[k] = s.pal[k])) ∧
        w = (if s.regs.clipCtrl.getLsbD 0 then min s.st.width.toInt s.regs.maxW.toInt else s.st.width.toInt) ∧
        h = (if s.regs.clipCtrl.getLsbD 1 then min s.st.height.toInt s.regs.maxH.toInt else s.st.height.toInt) ∧
        (0 < h → blockStep s = .next { s.readDone (4 * n) pb with
          pal := pal
          st := { s.st with palLen := n, loadW := w, loadH := h, row := 0, step := .rowSeek } }) ∧
        (h ≤ 0 → ∃ row : Nat, blockStep s = .next { s.readDone (4 * n) pb with
          pal := pal
          st := { s.st with palLen := n, loadW := w, loadH := h, row := row, outcome := .ok, step := .release } }))

/-- R178, R179: the clip region is the image, shrunk by each bound whose enable bit is set; the first row is read
unless the region has none, and then DECODE finishes OK. That ST.row is 0 where the region has no row is the model's
choice (assumption 28). -/
def Obligations.ClipRegion : Prop :=
  ∀ s : State, ∃ w h : Int,
    w = (if s.regs.clipCtrl.getLsbD 0 then min s.st.width.toInt s.regs.maxW.toInt else s.st.width.toInt) ∧
    h = (if s.regs.clipCtrl.getLsbD 1 then min s.st.height.toInt s.regs.maxH.toInt else s.st.height.toInt) ∧
    w ≤ s.st.width.toInt ∧ h ≤ s.st.height.toInt ∧
    (0 < h → enterRows s = .next { s with st := { s.st with loadW := w, loadH := h, row := 0, step := .rowSeek } }) ∧
    (h ≤ 0 → enterRows s =
      .next { s with st := { s.st with loadW := w, loadH := h, row := 0, outcome := .ok, step := .release } })

/-- R179, R180: the row of destination row `row` is sought at pixelDataOffset + (height - 1 - row) * rowStride. -/
def Obligations.RowsAreReadBottomUp : Prop :=
  ∀ s : State, Invariant s → s.st.op ≠ .none → s.st.step = .rowSeek → s.AnswersSeek →
    ∃ o : Nat, (o : Int) = s.st.pixOff.toNat + (s.st.height.toInt - 1 - s.st.row) * s.st.rowStride ∧
      blockStep s = .next { s with
        src := { s.src with pos := o, plan := s.src.plan.tail }
        trace := s.trace ++ [.seek o .ok]
        st := { s.st with step := .rowRead } }

/-- R180: a row read short of rowStride bytes is TruncatedRow, and nothing of the row is stored or written. A whole
one is ROWBUF[0 .. rowStride - 1], and every other byte of ROWBUF stays; the pixels of the row follow, or, where the
clip region has no column, the next row or success. That ST.col is 0 where the region has no column is the model's
choice (assumption 28). So is that ST.row keeps the last row at the end (assumption 31). -/
def Obligations.RowBufferHoldsTheRow : Prop :=
  ∀ (s : State) (rb : List Byte), Invariant s → s.st.op ≠ .none → s.st.step = .rowRead → s.AnswersRead s.st.rowStride rb →
    (rb.length < s.st.rowStride →
      blockStep s = .next ((s.readDone s.st.rowStride rb).endCommand (.format .truncatedRow))) ∧
    (rb.length = s.st.rowStride →
      ∃ t, blockStep s = .next t ∧ t.regs = s.regs ∧ t.pal = s.pal ∧ t.surf = s.surf ∧
        t.trace = s.trace ++ [.read s.st.rowStride (.bytes rb)] ∧
        (∀ i, i < s.st.rowStride → some (t.rowBuf.read i) = rb[i]?) ∧
        (∀ i, s.st.rowStride ≤ i → t.rowBuf.read i = s.rowBuf.read i) ∧
        (0 < s.st.loadW → t.st = { s.st with col := 0, step := .pixel }) ∧
        (s.st.loadW ≤ 0 → (s.st.row : Int) + 1 < s.st.loadH →
          t.st = { s.st with col := 0, row := s.st.row + 1, step := .rowSeek }) ∧
        (s.st.loadW ≤ 0 → s.st.loadH ≤ (s.st.row : Int) + 1 →
          t.st = { s.st with col := 0, outcome := .ok, step := .release }))

/-- R134, R181, R182, R183: the pixel of column `col` is written at (dx + col, dy + row). Its colour is, for an 8-bit
image, the palette entry of its index, or 0x0000 where the index is not below ST.palLen; for a 24-bit image, the
packed colour of the bytes 3col + 2, 3col + 1 and 3col. Then comes the next column, the next row, or success. That
the surface keeps the pixel, the last value written to each coordinate, is the model's choice (assumption 5); black
as 0x0000 is R134's, marked there as general knowledge (assumption 26). That ST.col keeps the last column after a
row, and ST.row the last row at the end, is the model's choice (assumption 31). -/
def Obligations.PixelIsWritten : Prop :=
  ∀ s : State, Invariant s → s.st.op ≠ .none → s.st.step = .pixel → s.surfDraw = .accepts →
    ∃ (c : Color16) (st : Sequencer),
      blockStep s = .next { s with
        surf := ⟨surfaceWrite s.surf.cells ⟨s.st.dx.toInt + s.st.col, s.st.dy.toInt + s.st.row, c⟩, s.surf.plan.tail⟩
        trace := s.trace ++ [.surfSet (s.st.dx.toInt + s.st.col) (s.st.dy.toInt + s.st.row) c]
        st := st } ∧
      (s.st.bpp = 8 → ∀ idx : Fin 256, (s.rowBuf.read s.st.col).toNat = idx.val →
        (idx.val < s.st.palLen → c = s.pal[idx]) ∧ (s.st.palLen ≤ idx.val → c = 0x0000)) ∧
      (s.st.bpp = 24 →
        c = packColor ⟨s.rowBuf.read (3 * s.st.col + 2), s.rowBuf.read (3 * s.st.col + 1), s.rowBuf.read (3 * s.st.col)⟩) ∧
      ((s.st.col : Int) + 1 < s.st.loadW → st = { s.st with col := s.st.col + 1 }) ∧
      (s.st.loadW ≤ (s.st.col : Int) + 1 → (s.st.row : Int) + 1 < s.st.loadH →
        st = { s.st with row := s.st.row + 1, step := .rowSeek }) ∧
      (s.st.loadW ≤ (s.st.col : Int) + 1 → s.st.loadH ≤ (s.st.row : Int) + 1 →
        st = { s.st with outcome := .ok, step := .release })

/-- R278: a surface that keeps the last value written to each coordinate: a pixel write is read back, and every other
coordinate reads as before. That the bound surface is of this kind is the model's choice (assumption 5). -/
def Obligations.SurfaceKeepsTheLastWrite : Prop :=
  ∀ s t : State, Invariant s → step s = .next t →
    (∀ x y c, t.trace = s.trace ++ [.surfSet x y c] →
      surfaceRead t.surf.cells x y = some c ∧
      ∀ x' y', ¬(x' = x ∧ y' = y) → surfaceRead t.surf.cells x' y' = surfaceRead s.surf.cells x' y') ∧
    ((∀ x y c, t.trace ≠ s.trace ++ [.surfSet x y c]) → (∀ content plan, s.prog.head? ≠ some (.bindSurface content plan)) →
      t.surf.cells = s.surf.cells)

/-! ## Whole commands -/

/-- R171, R185, R191, R231, R232: INSPECT, issued while idle, on a source that answers as the reference file model does
and with the block alone moving, takes one step per event of its pseudocode and one completion step. It leaves the trace
of the pseudocode, its outcome in STATUS, and the INFO registers only where it succeeds; the surface, the palette and
the row buffer stay. -/
def Obligations.InspectRunsItsPseudocode : Prop :=
  ∀ (s : State) (ev : List Event) (o : Except CmdOutcome ImageHeader), s.regs.status.busy = false →
    inspectProgram s.params s.src.bytes = (ev, o) → s.Cooperates (ev.length + 1) →
    ∃ s₁ t : State, exec .inspect s = .next s₁ ∧ Host.Core.run Sys2Proof.core (ev.length + 1) s₁ = .next t ∧
      t.trace = s.trace ++ ev ∧ t.regs = inspectRegs s.regs o ∧ t.st.op = .none ∧
      t.surf.cells = s.surf.cells ∧ t.pal = s.pal ∧ t.rowBuf = s.rowBuf ∧ t.prog = s.prog ∧ t.reads = s.reads

/-- R186, R191, R231, R232: DECODE, issued while idle, on a source that answers as the reference file model does, on a
surface that accepts each write, and with the block alone moving, takes one step per event of its pseudocode and one
completion step. It leaves the trace of the pseudocode, its outcome in STATUS, and the surface with those pixels
written; no other register changes. The pseudocode knows no sequencer, palette RAM or row buffer. The content of the
surface is that of one that keeps the last value written to each coordinate, the model's choice (assumption 5, R278). -/
def Obligations.DecodeRunsItsPseudocode : Prop :=
  ∀ (s : State) (ev : List Event) (o : CmdOutcome), Invariant s → s.regs.status.busy = false →
    decodeProgram s.params s.regs s.src.bytes = (ev, o) → s.Cooperates (ev.length + 1) →
    ∃ s₁ t : State, exec .decode s = .next s₁ ∧ Host.Core.run Sys2Proof.core (ev.length + 1) s₁ = .next t ∧
      t.trace = s.trace ++ ev ∧ t.regs = { s.regs with status := Status.completed o } ∧ t.st.op = .none ∧
      t.surf.cells = surfaceAfter s.surf.cells ev ∧ t.prog = s.prog ∧ t.reads = s.reads

/-- R191, of the pseudocode programs `decodeProgram` and `inspectProgram` on a reference file (the statements
`DecodeRunsItsPseudocode` and `InspectRunsItsPseudocode` tie the machine's steps to them). With W and H the clip
region's size where positive and 0 elsewhere, a successful DECODE issues SEEK(0), READ(14), READ(40); SEEK(54) and
READ(4N) for an 8-bit image only; for each of H rows the SEEK of its stored row, READ(rowStride) and W pixels from left
to right; and RELEASE: so 4 events, 2 more for an 8-bit image, and 2 + W for each row. A successful INSPECT issues
exactly SEEK(0), READ(14), READ(40) and RELEASE. -/
def Obligations.SuccessfulTraceShape : Prop :=
  (∀ (p : Params) (r : Regs) (S : List Byte) (h : ImageHeader), (headerProgram p S).2 = .ok h →
    (decodeProgram p r S).2 = .ok →
      ∃ (W H n stride : Nat) (offset : Nat → Nat) (color : Nat → Nat → Color16),
        W = (if r.clipCtrl.getLsbD 0 then min h.width.toInt r.maxW.toInt else h.width.toInt).toNat ∧
        H = (if r.clipCtrl.getLsbD 1 then min h.height.toInt r.maxH.toInt else h.height.toInt).toNat ∧
        n = (if 0 < h.clrUsed.toNat then h.clrUsed.toNat else 256) ∧
        stride = rowStrideOf h.width (if h.bpp = 8 then 1 else 3) ∧
        (∀ row, row < H → (offset row : Int) = h.pixOff.toNat + (h.height.toInt - 1 - row) * stride) ∧
        (decodeProgram p r S).1 =
          [Event.seek 0 .ok, .read 14 (.bytes (S.take 14)), .read 40 (.bytes ((S.drop 14).take 40))] ++
          (if h.bpp = 8 then [Event.seek 54 .ok, .read (4 * n) (.bytes ((S.drop 54).take (4 * n)))] else []) ++
          ((List.range H).flatMap fun (row : Nat) =>
            [Event.seek (offset row) .ok, .read stride (.bytes ((S.drop (offset row)).take stride))] ++
              (List.range W).map fun (col : Nat) =>
                .surfSet (r.destX.toInt + (col : Int)) (r.destY.toInt + (row : Int)) (color row col)) ++
          [.release] ∧
        (decodeProgram p r S).1.length = 4 + (if h.bpp = 8 then 2 else 0) + H * (2 + W)) ∧
  (∀ (p : Params) (S : List Byte) (h : ImageHeader), (inspectProgram p S).2 = .ok h →
    (inspectProgram p S).1 =
      [.seek 0 .ok, .read 14 (.bytes (S.take 14)), .read 40 (.bytes ((S.drop 14).take 40)), .release])

/-- R273: an INSPECT that ends OK shows that a DECODE of the same source passes tests 1 to 9: it fails, if at all, with
NEGATIVE_DIMENSION, ROW_TOO_LONG, TruncatedPalette or TruncatedRow (the source answering every request). -/
def Obligations.InspectPrevalidates : Prop :=
  ∀ (p : Params) (r : Regs) (S : List Byte) (h : ImageHeader), (inspectProgram p S).2 = .ok h →
    (decodeProgram p r S).2 ∈ [CmdOutcome.ok, .unsupported .negativeDimension, .unsupported .rowTooLong,
      .format .truncatedPalette, .format .truncatedRow]

/-- R187, R188, R233: whatever the source answers and however the host interleaves, a DECODE has written, at every step
from its issue on, exactly the rows before the current one and the columns before the current one, row-major, each
coordinate once and none outside the region; a success has written the whole region, and a failure some number of whole
rows, fewer than the region has. Its issue starts with nothing written. -/
def Obligations.DecodeWritesWholeRows : Prop :=
  (∀ (s t : State), s.regs.status.busy = false → exec .decode s = .next t → DecodeWrote s.trace.length t) ∧
  (∀ (base : Nat) (s t : State), Invariant s → base ≤ s.trace.length → s.st.op = .decode → s.turn ≠ .reset →
    DecodeWrote base s → step s = .next t → base ≤ t.trace.length ∧ DecodeWrote base t)

/-- R276: every block step in which the source and the surface answer brings a running command nearer its end: there is a
next state, unless an over-long answer is refused, and it needs fewer steps. -/
def Obligations.AnsweredStepsMakeProgress : Prop :=
  ∀ s : State, Invariant s → s.st.op ≠ .none → s.srcDraw ≠ .silent → s.surfDraw ≠ .silent →
    blockStep s = .refused .overlongAnswer ∨ ∃ t, blockStep s = .next t ∧ t.variant < s.variant

/-- R278: a run has ended when the host has no access left and no command runs. Short of a reset, an ended run stays
ended, and its observation stays. That an ended run still has steps, which change nothing of it, is the model's
choice (assumption 15). The observation has the content of the surface bound last, the model's choice too (assumption
29). -/
def Obligations.EndedRunsAreFinal : Prop :=
  ∀ s : State, s.Ended → s.turn ≠ .reset → ∃ t, step s = .next t ∧ t.Ended ∧ t.observe = s.observe

/-- R45, R263: unspecified scratch never shows. Two states that differ only in scratch the running command has not
written take steps that end alike, and the states after them again differ only so: no register, event or result ever
depends on a reset value of PAL, ROWBUF, the latches or the counters, or on what an earlier command left there. -/
def Obligations.ScratchNeverShows : Prop :=
  ∀ s t : State, Invariant s → Invariant t → SameButScratch s t →
    SameResult (step s) (step t) ∧ s.observe = t.observe

end
end

