-- ==== Sys2Proof/Laws/Memory.lean ====
section
/-! SUPPORT. The laws of the byte memory (ROWBUF) and of the surface: read after write, and that every operation keeps
the canonical form. -/

namespace Sys2Proof.Machine

open Sys2Proof

/-! ## Bytes by address -/

theorem Memory.read_eq_unlisted (m : Memory) (a : Nat) (h : ∀ c ∈ m, c.1 ≠ a) : m.read a = Memory.unlisted := by
  induction m with
  | nil => rfl
  | cons c m ih =>
    have hc : a ≠ c.1 := fun e => h c (by simp) e.symm
    simp only [Memory.read, if_neg hc]
    exact ih fun d hd => h d (by simp [hd])

theorem Memory.mem_write {m : Memory} {a : Nat} {v : Byte} {c : Host.Cell} (h : c ∈ m.write a v) :
    c ∈ m ∨ (c = (a, v) ∧ v ≠ Memory.unlisted) := by
  induction m with
  | nil =>
    simp only [Memory.write] at h
    split at h <;> simp_all
  | cons d m ih =>
    simp only [Memory.write] at h
    split at h
    · split at h
      · exact .inl h
      · rcases List.mem_cons.1 h with h | h
        · exact .inr ⟨h, by assumption⟩
        · exact .inl h
    · split at h
      · split at h
        · exact .inl (by simp [h])
        · rcases List.mem_cons.1 h with h | h
          · exact .inr ⟨h, by assumption⟩
          · exact .inl (by simp [h])
      · rcases List.mem_cons.1 h with h | h
        · simp [h]
        · rcases ih h with h | h <;> simp [h]

theorem Memory.wf_nil : Memory.wf [] := by simp [Memory.wf]

theorem Memory.wf.tail {c : Host.Cell} {m : Memory} (h : Memory.wf (c :: m)) : Memory.wf m :=
  ⟨(List.pairwise_cons.1 h.1).2, fun d hd => h.2 d (by simp [hd])⟩

/-- A write keeps the canonical form. -/
theorem Memory.wf_write {m : Memory} (h : m.wf) (a : Nat) (v : Byte) : (m.write a v).wf := by
  induction m with
  | nil =>
    simp only [Memory.write]
    split <;> simp_all [Memory.wf]
  | cons d m ih =>
    have hm := h.tail
    have hd := List.pairwise_cons.1 h.1
    simp only [Memory.write]
    split
    · rename_i had
      split
      · exact h
      · rename_i hv
        refine ⟨List.pairwise_cons.2 ⟨?_, h.1⟩, ?_⟩
        · intro c hc
          rcases List.mem_cons.1 hc with rfl | hc
          · exact had
          · exact lt_trans had (hd.1 c hc)
        · intro c hc
          rcases List.mem_cons.1 hc with rfl | hc
          · exact hv
          · exact h.2 c hc
    · split
      · rename_i had
        split
        · exact hm
        · rename_i hv
          refine ⟨List.pairwise_cons.2 ⟨?_, hd.2⟩, ?_⟩
          · intro c hc
            exact had ▸ hd.1 c hc
          · intro c hc
            rcases List.mem_cons.1 hc with rfl | hc
            · exact hv
            · exact hm.2 c hc
      · rename_i hlt hne
        have := ih hm
        refine ⟨List.pairwise_cons.2 ⟨?_, this.1⟩, ?_⟩
        · intro c hc
          rcases Memory.mem_write hc with hc | ⟨rfl, -⟩
          · exact hd.1 c hc
          · show d.1 < a
            omega
        · intro c hc
          rcases List.mem_cons.1 hc with rfl | hc
          · exact h.2 _ (by simp)
          · exact this.2 c hc

/-- Writing a byte sequence keeps the canonical form. -/
theorem Memory.wf_writeBytes {m : Memory} (h : m.wf) (a : Nat) (b : List Byte) : (m.writeBytes a b).wf := by
  induction b generalizing m a with
  | nil => exact h
  | cons v b ih => exact ih (Memory.wf_write h a v) (a + 1)

theorem Memory.mem_writeBytes {m : Memory} {a : Nat} {b : List Byte} {c : Host.Cell} (h : c ∈ m.writeBytes a b) :
    c ∈ m ∨ (a ≤ c.1 ∧ c.1 < a + b.length) := by
  induction b generalizing m a with
  | nil => exact .inl h
  | cons v b ih =>
    rcases ih h with h | h
    · rcases Memory.mem_write h with h | ⟨rfl, -⟩
      · exact .inl h
      · right; simp
    · right; simp only [List.length_cons]; omega

theorem Memory.read_below {m : Memory} (a : Nat) (hlt : ∀ c ∈ m, a < c.1) : m.read a = Memory.unlisted :=
  Memory.read_eq_unlisted m a fun c hc => by have := hlt c hc; omega

/-- A read after a write to the same address gives the byte written. -/
theorem Memory.read_write_same {m : Memory} (h : m.wf) (a : Nat) (v : Byte) : (m.write a v).read a = v := by
  induction m with
  | nil =>
    simp only [Memory.write]
    split <;> simp_all [Memory.read]
  | cons d m ih =>
    have hd := List.pairwise_cons.1 h.1
    simp only [Memory.write]
    split
    · rename_i had
      split
      · rename_i hv
        rw [hv]
        refine Memory.read_below a fun c hc => ?_
        rcases List.mem_cons.1 hc with rfl | hc
        · exact had
        · exact lt_trans had (hd.1 c hc)
      · simp [Memory.read]
    · split
      · rename_i had
        split
        · rename_i hv
          rw [hv]
          exact Memory.read_below a fun c hc => had ▸ hd.1 c hc
        · simp [Memory.read]
      · rename_i hlt hne
        simp only [Memory.read, if_neg hne]
        exact ih h.tail

/-- A write leaves every other address as it was. -/
theorem Memory.read_write_other {m : Memory} (h : m.wf) {a b : Nat} (v : Byte) (hab : b ≠ a) :
    (m.write a v).read b = m.read b := by
  induction m with
  | nil =>
    simp only [Memory.write]
    split <;> simp [Memory.read, hab]
  | cons d m ih =>
    simp only [Memory.write]
    split
    · split
      · rfl
      · simp [Memory.read, hab]
    · split
      · rename_i had
        have hbd : b ≠ d.1 := had ▸ hab
        split
        · simp [Memory.read, hbd]
        · simp [Memory.read, hab, hbd]
      · simp only [Memory.read]
        rw [ih h.tail]

/-- Reading after a byte sequence was written: the bytes of the sequence where it lies, and elsewhere as before. -/
theorem Memory.read_writeBytes {m : Memory} (h : m.wf) (a : Nat) (b : List Byte) (i : Nat) :
    (m.writeBytes a b).read i = if a ≤ i ∧ i < a + b.length then byteAt b (i - a) else m.read i := by
  induction b generalizing m a with
  | nil =>
    simp only [Memory.writeBytes, List.length_nil]
    rw [if_neg (by omega)]
  | cons v b ih =>
    simp only [Memory.writeBytes, List.length_cons]
    rw [ih (Memory.wf_write h a v)]
    by_cases hi : i = a
    · subst hi
      rw [if_neg (by omega), if_pos (by omega), Memory.read_write_same h]
      simp [byteAt]
    · rw [Memory.read_write_other h v hi]
      by_cases hin : a + 1 ≤ i ∧ i < a + 1 + b.length
      · rw [if_pos hin, if_pos (by omega)]
        have : i - a = (i - (a + 1)) + 1 := by omega
        simp [byteAt, this]
      · rw [if_neg hin, if_neg (by omega)]

/-! ## Pixels by coordinate -/

theorem SurfCell.before_trans {c d e : SurfCell} (h : c.before d) (h' : d.before e) : c.before e := by
  unfold SurfCell.before at *
  omega

theorem SurfCell.before_of_not {c d : SurfCell} (h : ¬c.before d) (h' : ¬(c.x = d.x ∧ c.y = d.y)) : d.before c := by
  unfold SurfCell.before at *
  omega

theorem mem_surfaceWrite {m : List SurfCell} {c d : SurfCell} (h : d ∈ surfaceWrite m c) : d ∈ m ∨ d = c := by
  induction m with
  | nil => simp_all [surfaceWrite]
  | cons e m ih =>
    simp only [surfaceWrite] at h
    split at h
    · simp_all; tauto
    · split at h
      · simp_all; tauto
      · rcases List.mem_cons.1 h with h | h
        · simp [h]
        · rcases ih h with h | h <;> simp [h]

/-- A pixel write keeps the canonical form. -/
theorem surfaceWf_write {m : List SurfCell} (h : surfaceWf m) (c : SurfCell) : surfaceWf (surfaceWrite m c) := by
  induction m with
  | nil => simp [surfaceWrite, surfaceWf]
  | cons d m ih =>
    have hd := List.pairwise_cons.1 h
    simp only [surfaceWrite]
    split
    · rename_i hcd
      refine List.pairwise_cons.2 ⟨fun e he => ?_, h⟩
      rcases List.mem_cons.1 he with rfl | he
      · exact hcd
      · exact SurfCell.before_trans hcd (hd.1 e he)
    · split
      · rename_i hcd
        refine List.pairwise_cons.2 ⟨fun e he => ?_, hd.2⟩
        have := hd.1 e he
        unfold SurfCell.before at *
        omega
      · rename_i hcd hne
        refine List.pairwise_cons.2 ⟨fun e he => ?_, ih hd.2⟩
        rcases mem_surfaceWrite he with he | rfl
        · exact hd.1 e he
        · exact SurfCell.before_of_not hcd hne

theorem surfaceWf_foldl {m : List SurfCell} (h : surfaceWf m) (cells : List SurfCell) :
    surfaceWf (cells.foldl surfaceWrite m) := by
  induction cells generalizing m with
  | nil => exact h
  | cons c cells ih => exact ih (surfaceWf_write h c)

/-- Any list of pixels gives content in canonical form. -/
theorem surfaceWf_of (cells : List SurfCell) : surfaceWf (surfaceOf cells) :=
  surfaceWf_foldl (by simp [surfaceWf]) cells

theorem surfaceRead_none {m : List SurfCell} {x y : Int} (h : ∀ d ∈ m, ¬(x = d.x ∧ y = d.y)) :
    surfaceRead m x y = none := by
  induction m with
  | nil => rfl
  | cons d m ih =>
    simp only [surfaceRead, if_neg (h d (by simp))]
    exact ih fun e he => h e (by simp [he])

/-- A read at a coordinate after a pixel write there gives the colour written. -/
theorem surfaceRead_write_same (m : List SurfCell) (c : SurfCell) :
    surfaceRead (surfaceWrite m c) c.x c.y = some c.color := by
  induction m with
  | nil => simp [surfaceWrite, surfaceRead]
  | cons d m ih =>
    simp only [surfaceWrite]
    split
    · simp [surfaceRead]
    · split
      · simp [surfaceRead]
      · rename_i hne
        simp only [surfaceRead, if_neg hne]
        exact ih

/-- A pixel write leaves every other coordinate as it was. -/
theorem surfaceRead_write_other (m : List SurfCell) (c : SurfCell) {x y : Int} (h : ¬(x = c.x ∧ y = c.y)) :
    surfaceRead (surfaceWrite m c) x y = surfaceRead m x y := by
  induction m with
  | nil => simp [surfaceWrite, surfaceRead, h]
  | cons d m ih =>
    simp only [surfaceWrite]
    split
    · simp [surfaceRead, h]
    · split
      · rename_i hcd
        have hd : ¬(x = d.x ∧ y = d.y) := fun e => h ⟨e.1.trans hcd.1.symm, e.2.trans hcd.2.symm⟩
        simp [surfaceRead, h, hd]
      · simp only [surfaceRead]
        rw [ih]

end Sys2Proof.Machine
end

