-- ==== Sys2Proof/Laws/State.lean ====
section
/-! SUPPORT. One lemma per field and update of State, each true by rfl: what an update writes, and what it leaves. -/

namespace Sys2Proof.Machine

open Sys2Proof

variable (s : State)

/-! ### log -/

@[simp] theorem State.log_params (e : Event) : (s.log e).params = s.params := rfl
@[simp] theorem State.log_regs (e : Event) : (s.log e).regs = s.regs := rfl
@[simp] theorem State.log_st (e : Event) : (s.log e).st = s.st := rfl
@[simp] theorem State.log_pal (e : Event) : (s.log e).pal = s.pal := rfl
@[simp] theorem State.log_rowBuf (e : Event) : (s.log e).rowBuf = s.rowBuf := rfl
@[simp] theorem State.log_src (e : Event) : (s.log e).src = s.src := rfl
@[simp] theorem State.log_surf (e : Event) : (s.log e).surf = s.surf := rfl
@[simp] theorem State.log_trace (e : Event) : (s.log e).trace = s.trace ++ [e] := rfl
@[simp] theorem State.log_prog (e : Event) : (s.log e).prog = s.prog := rfl
@[simp] theorem State.log_reads (e : Event) : (s.log e).reads = s.reads := rfl
@[simp] theorem State.log_sched (e : Event) : (s.log e).sched = s.sched := rfl
@[simp] theorem State.log_ticks (e : Event) : (s.log e).ticks = s.ticks := rfl

/-! ### useSrcDraw -/

@[simp] theorem State.useSrcDraw_params : s.useSrcDraw.params = s.params := rfl
@[simp] theorem State.useSrcDraw_regs : s.useSrcDraw.regs = s.regs := rfl
@[simp] theorem State.useSrcDraw_st : s.useSrcDraw.st = s.st := rfl
@[simp] theorem State.useSrcDraw_pal : s.useSrcDraw.pal = s.pal := rfl
@[simp] theorem State.useSrcDraw_rowBuf : s.useSrcDraw.rowBuf = s.rowBuf := rfl
@[simp] theorem State.useSrcDraw_src : s.useSrcDraw.src = { s.src with plan := s.src.plan.tail } := rfl
@[simp] theorem State.useSrcDraw_surf : s.useSrcDraw.surf = s.surf := rfl
@[simp] theorem State.useSrcDraw_trace : s.useSrcDraw.trace = s.trace := rfl
@[simp] theorem State.useSrcDraw_prog : s.useSrcDraw.prog = s.prog := rfl
@[simp] theorem State.useSrcDraw_reads : s.useSrcDraw.reads = s.reads := rfl
@[simp] theorem State.useSrcDraw_sched : s.useSrcDraw.sched = s.sched := rfl
@[simp] theorem State.useSrcDraw_ticks : s.useSrcDraw.ticks = s.ticks := rfl

/-! ### useSurfDraw -/

@[simp] theorem State.useSurfDraw_params : s.useSurfDraw.params = s.params := rfl
@[simp] theorem State.useSurfDraw_regs : s.useSurfDraw.regs = s.regs := rfl
@[simp] theorem State.useSurfDraw_st : s.useSurfDraw.st = s.st := rfl
@[simp] theorem State.useSurfDraw_pal : s.useSurfDraw.pal = s.pal := rfl
@[simp] theorem State.useSurfDraw_rowBuf : s.useSurfDraw.rowBuf = s.rowBuf := rfl
@[simp] theorem State.useSurfDraw_src : s.useSurfDraw.src = s.src := rfl
@[simp] theorem State.useSurfDraw_surf : s.useSurfDraw.surf = { s.surf with plan := s.surf.plan.tail } := rfl
@[simp] theorem State.useSurfDraw_trace : s.useSurfDraw.trace = s.trace := rfl
@[simp] theorem State.useSurfDraw_prog : s.useSurfDraw.prog = s.prog := rfl
@[simp] theorem State.useSurfDraw_reads : s.useSurfDraw.reads = s.reads := rfl
@[simp] theorem State.useSurfDraw_sched : s.useSurfDraw.sched = s.sched := rfl
@[simp] theorem State.useSurfDraw_ticks : s.useSurfDraw.ticks = s.ticks := rfl

/-! ### endCommand -/

@[simp] theorem State.endCommand_params (o : CmdOutcome) : (s.endCommand o).params = s.params := rfl
@[simp] theorem State.endCommand_regs (o : CmdOutcome) : (s.endCommand o).regs = s.regs := rfl
@[simp] theorem State.endCommand_st (o : CmdOutcome) :
    (s.endCommand o).st =
      { s.st with outcome := o, step := .release } := rfl
@[simp] theorem State.endCommand_pal (o : CmdOutcome) : (s.endCommand o).pal = s.pal := rfl
@[simp] theorem State.endCommand_rowBuf (o : CmdOutcome) : (s.endCommand o).rowBuf = s.rowBuf := rfl
@[simp] theorem State.endCommand_src (o : CmdOutcome) : (s.endCommand o).src = s.src := rfl
@[simp] theorem State.endCommand_surf (o : CmdOutcome) : (s.endCommand o).surf = s.surf := rfl
@[simp] theorem State.endCommand_trace (o : CmdOutcome) : (s.endCommand o).trace = s.trace := rfl
@[simp] theorem State.endCommand_prog (o : CmdOutcome) : (s.endCommand o).prog = s.prog := rfl
@[simp] theorem State.endCommand_reads (o : CmdOutcome) : (s.endCommand o).reads = s.reads := rfl
@[simp] theorem State.endCommand_sched (o : CmdOutcome) : (s.endCommand o).sched = s.sched := rfl
@[simp] theorem State.endCommand_ticks (o : CmdOutcome) : (s.endCommand o).ticks = s.ticks := rfl

/-! ### seekDone -/

@[simp] theorem State.seekDone_params (o : Nat) : (s.seekDone o).params = s.params := rfl
@[simp] theorem State.seekDone_regs (o : Nat) : (s.seekDone o).regs = s.regs := rfl
@[simp] theorem State.seekDone_st (o : Nat) : (s.seekDone o).st = s.st := rfl
@[simp] theorem State.seekDone_pal (o : Nat) : (s.seekDone o).pal = s.pal := rfl
@[simp] theorem State.seekDone_rowBuf (o : Nat) : (s.seekDone o).rowBuf = s.rowBuf := rfl
@[simp] theorem State.seekDone_src (o : Nat) :
    (s.seekDone o).src =
      { s.src with pos := o, plan := s.src.plan.tail } := rfl
@[simp] theorem State.seekDone_surf (o : Nat) : (s.seekDone o).surf = s.surf := rfl
@[simp] theorem State.seekDone_trace (o : Nat) : (s.seekDone o).trace = s.trace ++ [.seek o .ok] := rfl
@[simp] theorem State.seekDone_prog (o : Nat) : (s.seekDone o).prog = s.prog := rfl
@[simp] theorem State.seekDone_reads (o : Nat) : (s.seekDone o).reads = s.reads := rfl
@[simp] theorem State.seekDone_sched (o : Nat) : (s.seekDone o).sched = s.sched := rfl
@[simp] theorem State.seekDone_ticks (o : Nat) : (s.seekDone o).ticks = s.ticks := rfl

/-! ### readDone -/

@[simp] theorem State.readDone_params (n : Nat) (b : List Byte) : (s.readDone n b).params = s.params := rfl
@[simp] theorem State.readDone_regs (n : Nat) (b : List Byte) : (s.readDone n b).regs = s.regs := rfl
@[simp] theorem State.readDone_st (n : Nat) (b : List Byte) : (s.readDone n b).st = s.st := rfl
@[simp] theorem State.readDone_pal (n : Nat) (b : List Byte) : (s.readDone n b).pal = s.pal := rfl
@[simp] theorem State.readDone_rowBuf (n : Nat) (b : List Byte) : (s.readDone n b).rowBuf = s.rowBuf := rfl
@[simp] theorem State.readDone_src (n : Nat) (b : List Byte) :
    (s.readDone n b).src =
      { s.src with pos := s.src.pos + b.length, plan := s.src.plan.tail } := rfl
@[simp] theorem State.readDone_surf (n : Nat) (b : List Byte) : (s.readDone n b).surf = s.surf := rfl
@[simp] theorem State.readDone_trace (n : Nat) (b : List Byte) :
    (s.readDone n b).trace =
      s.trace ++ [.read n (.bytes b)] := rfl
@[simp] theorem State.readDone_prog (n : Nat) (b : List Byte) : (s.readDone n b).prog = s.prog := rfl
@[simp] theorem State.readDone_reads (n : Nat) (b : List Byte) : (s.readDone n b).reads = s.reads := rfl
@[simp] theorem State.readDone_sched (n : Nat) (b : List Byte) : (s.readDone n b).sched = s.sched := rfl
@[simp] theorem State.readDone_ticks (n : Nat) (b : List Byte) : (s.readDone n b).ticks = s.ticks := rfl

/-! ### requestFailed -/

@[simp] theorem State.requestFailed_params (e : Event) : (s.requestFailed e).params = s.params := rfl
@[simp] theorem State.requestFailed_regs (e : Event) : (s.requestFailed e).regs = s.regs := rfl
@[simp] theorem State.requestFailed_st (e : Event) :
    (s.requestFailed e).st =
      { s.st with outcome := .ioErr, step := .release } := rfl
@[simp] theorem State.requestFailed_pal (e : Event) : (s.requestFailed e).pal = s.pal := rfl
@[simp] theorem State.requestFailed_rowBuf (e : Event) : (s.requestFailed e).rowBuf = s.rowBuf := rfl
@[simp] theorem State.requestFailed_src (e : Event) :
    (s.requestFailed e).src =
      { s.src with plan := s.src.plan.tail } := rfl
@[simp] theorem State.requestFailed_surf (e : Event) : (s.requestFailed e).surf = s.surf := rfl
@[simp] theorem State.requestFailed_trace (e : Event) : (s.requestFailed e).trace = s.trace ++ [e] := rfl
@[simp] theorem State.requestFailed_prog (e : Event) : (s.requestFailed e).prog = s.prog := rfl
@[simp] theorem State.requestFailed_reads (e : Event) : (s.requestFailed e).reads = s.reads := rfl
@[simp] theorem State.requestFailed_sched (e : Event) : (s.requestFailed e).sched = s.sched := rfl
@[simp] theorem State.requestFailed_ticks (e : Event) : (s.requestFailed e).ticks = s.ticks := rfl

/-! ### pixelDone -/

@[simp] theorem State.pixelDone_params (x y : Int) (c : Color16) : (s.pixelDone x y c).params = s.params := rfl
@[simp] theorem State.pixelDone_regs (x y : Int) (c : Color16) : (s.pixelDone x y c).regs = s.regs := rfl
@[simp] theorem State.pixelDone_st (x y : Int) (c : Color16) : (s.pixelDone x y c).st = s.st := rfl
@[simp] theorem State.pixelDone_pal (x y : Int) (c : Color16) : (s.pixelDone x y c).pal = s.pal := rfl
@[simp] theorem State.pixelDone_rowBuf (x y : Int) (c : Color16) : (s.pixelDone x y c).rowBuf = s.rowBuf := rfl
@[simp] theorem State.pixelDone_src (x y : Int) (c : Color16) : (s.pixelDone x y c).src = s.src := rfl
@[simp] theorem State.pixelDone_surf (x y : Int) (c : Color16) :
    (s.pixelDone x y c).surf =
      ⟨surfaceWrite s.surf.cells ⟨x, y, c⟩, s.surf.plan.tail⟩ := rfl
@[simp] theorem State.pixelDone_trace (x y : Int) (c : Color16) :
    (s.pixelDone x y c).trace =
      s.trace ++ [.surfSet x y c] := rfl
@[simp] theorem State.pixelDone_prog (x y : Int) (c : Color16) : (s.pixelDone x y c).prog = s.prog := rfl
@[simp] theorem State.pixelDone_reads (x y : Int) (c : Color16) : (s.pixelDone x y c).reads = s.reads := rfl
@[simp] theorem State.pixelDone_sched (x y : Int) (c : Color16) : (s.pixelDone x y c).sched = s.sched := rfl
@[simp] theorem State.pixelDone_ticks (x y : Int) (c : Color16) : (s.pixelDone x y c).ticks = s.ticks := rfl

/-! ### issue -/

@[simp] theorem State.issue_params (op : RunningOp) : (s.issue op).params = s.params := rfl
@[simp] theorem State.issue_regs (op : RunningOp) :
    (s.issue op).regs =
      { s.regs with status := Status.running } := rfl
@[simp] theorem State.issue_st (op : RunningOp) : (s.issue op).st = { s.st with op := op, step := .seekFH } := rfl
@[simp] theorem State.issue_pal (op : RunningOp) : (s.issue op).pal = s.pal := rfl
@[simp] theorem State.issue_rowBuf (op : RunningOp) : (s.issue op).rowBuf = s.rowBuf := rfl
@[simp] theorem State.issue_src (op : RunningOp) : (s.issue op).src = s.src := rfl
@[simp] theorem State.issue_surf (op : RunningOp) : (s.issue op).surf = s.surf := rfl
@[simp] theorem State.issue_trace (op : RunningOp) : (s.issue op).trace = s.trace := rfl
@[simp] theorem State.issue_prog (op : RunningOp) : (s.issue op).prog = s.prog := rfl
@[simp] theorem State.issue_reads (op : RunningOp) : (s.issue op).reads = s.reads := rfl
@[simp] theorem State.issue_sched (op : RunningOp) : (s.issue op).sched = s.sched := rfl
@[simp] theorem State.issue_ticks (op : RunningOp) : (s.issue op).ticks = s.ticks := rfl

/-! ### codecResult -/

@[simp] theorem State.codecResult_params (v : Word) : (s.codecResult v).params = s.params := rfl
@[simp] theorem State.codecResult_regs (v : Word) :
    (s.codecResult v).regs =
      { s.regs with codecRes := v, status := Status.completed .ok } := rfl
@[simp] theorem State.codecResult_st (v : Word) : (s.codecResult v).st = s.st := rfl
@[simp] theorem State.codecResult_pal (v : Word) : (s.codecResult v).pal = s.pal := rfl
@[simp] theorem State.codecResult_rowBuf (v : Word) : (s.codecResult v).rowBuf = s.rowBuf := rfl
@[simp] theorem State.codecResult_src (v : Word) : (s.codecResult v).src = s.src := rfl
@[simp] theorem State.codecResult_surf (v : Word) : (s.codecResult v).surf = s.surf := rfl
@[simp] theorem State.codecResult_trace (v : Word) : (s.codecResult v).trace = s.trace := rfl
@[simp] theorem State.codecResult_prog (v : Word) : (s.codecResult v).prog = s.prog := rfl
@[simp] theorem State.codecResult_reads (v : Word) : (s.codecResult v).reads = s.reads := rfl
@[simp] theorem State.codecResult_sched (v : Word) : (s.codecResult v).sched = s.sched := rfl
@[simp] theorem State.codecResult_ticks (v : Word) : (s.codecResult v).ticks = s.ticks := rfl

/-! ### completeCommand -/

@[simp] theorem State.completeCommand_params : s.completeCommand.params = s.params := rfl
@[simp] theorem State.completeCommand_regs : s.completeCommand.regs = s.completedRegs := rfl
@[simp] theorem State.completeCommand_st : s.completeCommand.st = { s.st with op := .none } := rfl
@[simp] theorem State.completeCommand_pal : s.completeCommand.pal = s.pal := rfl
@[simp] theorem State.completeCommand_rowBuf : s.completeCommand.rowBuf = s.rowBuf := rfl
@[simp] theorem State.completeCommand_src : s.completeCommand.src = s.src := rfl
@[simp] theorem State.completeCommand_surf : s.completeCommand.surf = s.surf := rfl
@[simp] theorem State.completeCommand_trace : s.completeCommand.trace = s.trace := rfl
@[simp] theorem State.completeCommand_prog : s.completeCommand.prog = s.prog := rfl
@[simp] theorem State.completeCommand_reads : s.completeCommand.reads = s.reads := rfl
@[simp] theorem State.completeCommand_sched : s.completeCommand.sched = s.sched := rfl
@[simp] theorem State.completeCommand_ticks : s.completeCommand.ticks = s.ticks := rfl

/-! ### resetBlock -/

@[simp] theorem State.resetBlock_params : s.resetBlock.params = s.params := rfl
@[simp] theorem State.resetBlock_regs : s.resetBlock.regs = Regs.reset := rfl
@[simp] theorem State.resetBlock_st : s.resetBlock.st = Sequencer.reset := rfl
@[simp] theorem State.resetBlock_pal : s.resetBlock.pal = Palette.reset := rfl
@[simp] theorem State.resetBlock_rowBuf : s.resetBlock.rowBuf = [] := rfl
@[simp] theorem State.resetBlock_src : s.resetBlock.src = s.src := rfl
@[simp] theorem State.resetBlock_surf : s.resetBlock.surf = s.surf := rfl
@[simp] theorem State.resetBlock_trace : s.resetBlock.trace = s.trace := rfl
@[simp] theorem State.resetBlock_prog : s.resetBlock.prog = s.prog := rfl
@[simp] theorem State.resetBlock_reads : s.resetBlock.reads = s.reads := rfl
@[simp] theorem State.resetBlock_sched : s.resetBlock.sched = s.sched := rfl
@[simp] theorem State.resetBlock_ticks : s.resetBlock.ticks = s.ticks := rfl

/-! ### tick -/

@[simp] theorem State.tick_params : s.tick.params = s.params := rfl
@[simp] theorem State.tick_regs : s.tick.regs = s.regs := rfl
@[simp] theorem State.tick_st : s.tick.st = s.st := rfl
@[simp] theorem State.tick_pal : s.tick.pal = s.pal := rfl
@[simp] theorem State.tick_rowBuf : s.tick.rowBuf = s.rowBuf := rfl
@[simp] theorem State.tick_src : s.tick.src = s.src := rfl
@[simp] theorem State.tick_surf : s.tick.surf = s.surf := rfl
@[simp] theorem State.tick_trace : s.tick.trace = s.trace := rfl
@[simp] theorem State.tick_prog : s.tick.prog = s.prog := rfl
@[simp] theorem State.tick_reads : s.tick.reads = s.reads := rfl
@[simp] theorem State.tick_sched : s.tick.sched = s.sched.tail := rfl
@[simp] theorem State.tick_ticks : s.tick.ticks = s.ticks + 1 := rfl

/-! ### goto -/

@[simp] theorem State.goto_params (q : SeqStep) : (s.goto q).params = s.params := rfl
@[simp] theorem State.goto_regs (q : SeqStep) : (s.goto q).regs = s.regs := rfl
@[simp] theorem State.goto_st (q : SeqStep) : (s.goto q).st = { s.st with step := q } := rfl
@[simp] theorem State.goto_pal (q : SeqStep) : (s.goto q).pal = s.pal := rfl
@[simp] theorem State.goto_rowBuf (q : SeqStep) : (s.goto q).rowBuf = s.rowBuf := rfl
@[simp] theorem State.goto_src (q : SeqStep) : (s.goto q).src = s.src := rfl
@[simp] theorem State.goto_surf (q : SeqStep) : (s.goto q).surf = s.surf := rfl
@[simp] theorem State.goto_trace (q : SeqStep) : (s.goto q).trace = s.trace := rfl
@[simp] theorem State.goto_prog (q : SeqStep) : (s.goto q).prog = s.prog := rfl
@[simp] theorem State.goto_reads (q : SeqStep) : (s.goto q).reads = s.reads := rfl
@[simp] theorem State.goto_sched (q : SeqStep) : (s.goto q).sched = s.sched := rfl
@[simp] theorem State.goto_ticks (q : SeqStep) : (s.goto q).ticks = s.ticks := rfl

/-! ### latchFileHeader -/

@[simp] theorem State.latchFileHeader_params (fh : List Byte) : (s.latchFileHeader fh).params = s.params := rfl
@[simp] theorem State.latchFileHeader_regs (fh : List Byte) : (s.latchFileHeader fh).regs = s.regs := rfl
@[simp] theorem State.latchFileHeader_st (fh : List Byte) :
    (s.latchFileHeader fh).st =
      { s.st with fileSize := le32 fh 2, pixOff := le32 fh 10 } := rfl
@[simp] theorem State.latchFileHeader_pal (fh : List Byte) : (s.latchFileHeader fh).pal = s.pal := rfl
@[simp] theorem State.latchFileHeader_rowBuf (fh : List Byte) : (s.latchFileHeader fh).rowBuf = s.rowBuf := rfl
@[simp] theorem State.latchFileHeader_src (fh : List Byte) : (s.latchFileHeader fh).src = s.src := rfl
@[simp] theorem State.latchFileHeader_surf (fh : List Byte) : (s.latchFileHeader fh).surf = s.surf := rfl
@[simp] theorem State.latchFileHeader_trace (fh : List Byte) : (s.latchFileHeader fh).trace = s.trace := rfl
@[simp] theorem State.latchFileHeader_prog (fh : List Byte) : (s.latchFileHeader fh).prog = s.prog := rfl
@[simp] theorem State.latchFileHeader_reads (fh : List Byte) : (s.latchFileHeader fh).reads = s.reads := rfl
@[simp] theorem State.latchFileHeader_sched (fh : List Byte) : (s.latchFileHeader fh).sched = s.sched := rfl
@[simp] theorem State.latchFileHeader_ticks (fh : List Byte) : (s.latchFileHeader fh).ticks = s.ticks := rfl

/-! ### latchInfoHeader -/

@[simp] theorem State.latchInfoHeader_params (ih : List Byte) : (s.latchInfoHeader ih).params = s.params := rfl
@[simp] theorem State.latchInfoHeader_regs (ih : List Byte) : (s.latchInfoHeader ih).regs = s.regs := rfl
@[simp] theorem State.latchInfoHeader_st (ih : List Byte) :
    (s.latchInfoHeader ih).st =
      { s.st with
        width := le32 ih 4, height := le32 ih 8, planes := le16 ih 12, bpp := le16 ih 14, comp := le32 ih 16,
        clrUsed := le32 ih (clrUsedIndex s.params) } := rfl
@[simp] theorem State.latchInfoHeader_pal (ih : List Byte) : (s.latchInfoHeader ih).pal = s.pal := rfl
@[simp] theorem State.latchInfoHeader_rowBuf (ih : List Byte) : (s.latchInfoHeader ih).rowBuf = s.rowBuf := rfl
@[simp] theorem State.latchInfoHeader_src (ih : List Byte) : (s.latchInfoHeader ih).src = s.src := rfl
@[simp] theorem State.latchInfoHeader_surf (ih : List Byte) : (s.latchInfoHeader ih).surf = s.surf := rfl
@[simp] theorem State.latchInfoHeader_trace (ih : List Byte) : (s.latchInfoHeader ih).trace = s.trace := rfl
@[simp] theorem State.latchInfoHeader_prog (ih : List Byte) : (s.latchInfoHeader ih).prog = s.prog := rfl
@[simp] theorem State.latchInfoHeader_reads (ih : List Byte) : (s.latchInfoHeader ih).reads = s.reads := rfl
@[simp] theorem State.latchInfoHeader_sched (ih : List Byte) : (s.latchInfoHeader ih).sched = s.sched := rfl
@[simp] theorem State.latchInfoHeader_ticks (ih : List Byte) : (s.latchInfoHeader ih).ticks = s.ticks := rfl

/-! ### latchStride -/

@[simp] theorem State.latchStride_params : s.latchStride.params = s.params := rfl
@[simp] theorem State.latchStride_regs : s.latchStride.regs = s.regs := rfl
@[simp] theorem State.latchStride_st :
    s.latchStride.st =
      { s.st with
        bpg := bytesPerPixel s.st.bpp, rowStride := rowStrideOf s.st.width (bytesPerPixel s.st.bpp) } := rfl
@[simp] theorem State.latchStride_pal : s.latchStride.pal = s.pal := rfl
@[simp] theorem State.latchStride_rowBuf : s.latchStride.rowBuf = s.rowBuf := rfl
@[simp] theorem State.latchStride_src : s.latchStride.src = s.src := rfl
@[simp] theorem State.latchStride_surf : s.latchStride.surf = s.surf := rfl
@[simp] theorem State.latchStride_trace : s.latchStride.trace = s.trace := rfl
@[simp] theorem State.latchStride_prog : s.latchStride.prog = s.prog := rfl
@[simp] theorem State.latchStride_reads : s.latchStride.reads = s.reads := rfl
@[simp] theorem State.latchStride_sched : s.latchStride.sched = s.sched := rfl
@[simp] theorem State.latchStride_ticks : s.latchStride.ticks = s.ticks := rfl

/-! ### recordRead -/

@[simp] theorem State.recordRead_params (off : BitVec 8) (v : Word) : (s.recordRead off v).params = s.params := rfl
@[simp] theorem State.recordRead_regs (off : BitVec 8) (v : Word) : (s.recordRead off v).regs = s.regs := rfl
@[simp] theorem State.recordRead_st (off : BitVec 8) (v : Word) : (s.recordRead off v).st = s.st := rfl
@[simp] theorem State.recordRead_pal (off : BitVec 8) (v : Word) : (s.recordRead off v).pal = s.pal := rfl
@[simp] theorem State.recordRead_rowBuf (off : BitVec 8) (v : Word) : (s.recordRead off v).rowBuf = s.rowBuf := rfl
@[simp] theorem State.recordRead_src (off : BitVec 8) (v : Word) : (s.recordRead off v).src = s.src := rfl
@[simp] theorem State.recordRead_surf (off : BitVec 8) (v : Word) : (s.recordRead off v).surf = s.surf := rfl
@[simp] theorem State.recordRead_trace (off : BitVec 8) (v : Word) : (s.recordRead off v).trace = s.trace := rfl
@[simp] theorem State.recordRead_prog (off : BitVec 8) (v : Word) : (s.recordRead off v).prog = s.prog := rfl
@[simp] theorem State.recordRead_reads (off : BitVec 8) (v : Word) :
    (s.recordRead off v).reads =
      s.reads ++ [⟨off, v⟩] := rfl
@[simp] theorem State.recordRead_sched (off : BitVec 8) (v : Word) : (s.recordRead off v).sched = s.sched := rfl
@[simp] theorem State.recordRead_ticks (off : BitVec 8) (v : Word) : (s.recordRead off v).ticks = s.ticks := rfl

/-! ### withCmdWrite -/

@[simp] theorem State.withCmdWrite_params (w : Word) : (s.withCmdWrite w).params = s.params := rfl
@[simp] theorem State.withCmdWrite_regs (w : Word) : (s.withCmdWrite w).regs = s.regs := rfl
@[simp] theorem State.withCmdWrite_st (w : Word) : (s.withCmdWrite w).st = s.st := rfl
@[simp] theorem State.withCmdWrite_pal (w : Word) : (s.withCmdWrite w).pal = s.pal := rfl
@[simp] theorem State.withCmdWrite_rowBuf (w : Word) : (s.withCmdWrite w).rowBuf = s.rowBuf := rfl
@[simp] theorem State.withCmdWrite_src (w : Word) : (s.withCmdWrite w).src = s.src := rfl
@[simp] theorem State.withCmdWrite_surf (w : Word) : (s.withCmdWrite w).surf = s.surf := rfl
@[simp] theorem State.withCmdWrite_trace (w : Word) : (s.withCmdWrite w).trace = s.trace := rfl
@[simp] theorem State.withCmdWrite_prog (w : Word) : (s.withCmdWrite w).prog = cmdWrite w :: s.prog := rfl
@[simp] theorem State.withCmdWrite_reads (w : Word) : (s.withCmdWrite w).reads = s.reads := rfl
@[simp] theorem State.withCmdWrite_sched (w : Word) : (s.withCmdWrite w).sched = .host :: s.sched := rfl
@[simp] theorem State.withCmdWrite_ticks (w : Word) : (s.withCmdWrite w).ticks = s.ticks := rfl

end Sys2Proof.Machine
end

