-- ==== Sys2Proof/Laws/Ops.lean ====
section
/-! SUPPORT. What each shared operation can do, said once: the ports, the row buffer, issue and acceptance, the steps
of the sequencer that end a row, and whose turn it is. -/

namespace Sys2Proof.Machine

open Sys2Proof

/-! ## The ports -/

/-- What a SEEK can do (R62, R66): wait, fail with IOERR, or go on with the position set. -/
theorem srcSeek_cases (s : State) (o : Nat) (k : State → StepResult) :
    (s.srcDraw = .silent ∧ srcSeek s o k = .next s.useSrcDraw) ∨
    (s.srcDraw = .ioErr ∧ srcSeek s o k = .next (s.requestFailed (.seek o .ioErr))) ∨
    (s.srcDraw ≠ .silent ∧ s.srcDraw ≠ .ioErr ∧ srcSeek s o k = k (s.seekDone o)) := by
  unfold srcSeek
  cases s.srcDraw <;> simp

/-- What a READ can do (R63, R66): wait, fail with IOERR, be refused for an over-long answer, or go on with an answer of
at most `n` bytes. -/
theorem srcRead_cases (s : State) (n : Nat) (k : State → List Byte → StepResult) :
    (s.srcDraw = .silent ∧ srcRead s n k = .next s.useSrcDraw) ∨
    (s.srcDraw = .ioErr ∧ srcRead s n k = .next (s.requestFailed (.read n .ioErr))) ∨
    (srcRead s n k = .refused .overlongAnswer ∧ ∃ b, s.srcDraw = .bytes b ∧ n < b.length) ∨
    (s.srcDraw ≠ .silent ∧ s.srcDraw ≠ .ioErr ∧
      ∃ b : List Byte, b.length ≤ n ∧ (s.srcDraw = .reference ∧ b = s.src.slice n ∨ s.srcDraw = .bytes b) ∧
        srcRead s n k = k (s.readDone n b) b) := by
  unfold srcRead readAnswered
  cases h : s.srcDraw with
  | reference =>
    have : (s.src.slice n).length ≤ n := by simp [Source.slice]
    simp only [if_neg (Nat.not_lt.2 this)]
    exact .inr (.inr (.inr ⟨by simp, by simp, _, this, by simp, rfl⟩))
  | ioErr => simp
  | bytes b =>
    by_cases hb : n < b.length
    · simp [hb]
    · simp only [if_neg hb]
      exact .inr (.inr (.inr ⟨by simp, by simp, b, by omega, by simp, rfl⟩))
  | silent => simp

/-- A READ that the reference file model answers (R67). -/
theorem srcRead_reference {s : State} (h : s.srcDraw = .reference) (n : Nat) (k : State → List Byte → StepResult) :
    srcRead s n k = k (s.readDone n (s.src.slice n)) (s.src.slice n) := by
  have : (s.src.slice n).length ≤ n := by simp [Source.slice]
  simp [srcRead, h, readAnswered, Nat.not_lt.2 this]

/-- A SEEK that the reference file model answers (R67). -/
theorem srcSeek_reference {s : State} (h : s.srcDraw = .reference) (o : Nat) (k : State → StepResult) :
    srcSeek s o k = k (s.seekDone o) := by simp [srcSeek, h]

/-- What a SurfSet can do (R68): wait, or go on with the pixel written. -/
theorem surfSet_cases (s : State) (x y : Int) (c : Color16) (k : State → StepResult) :
    (s.surfDraw = .silent ∧ surfSet s x y c k = .next s.useSurfDraw) ∨
    (s.surfDraw = .accepts ∧ surfSet s x y c k = k (s.pixelDone x y c)) := by
  unfold surfSet
  cases s.surfDraw <;> simp

/-! ## The row buffer -/

/-- A row that fits P_ROWBUF_MAX is stored (R42, R180). -/
theorem writeRowBuf_fits {s : State} {b : List Byte} (h : b.length ≤ s.params.rowBufMax) (k : State → StepResult) :
    writeRowBuf s b k = k { s with rowBuf := s.rowBuf.writeBytes 0 b } := by
  simp [writeRowBuf, Nat.not_lt.2 h]

/-- Bytes within P_ROWBUF_MAX are read (R42, R181, R182). -/
theorem withRowBuf_fits {s : State} {i n : Nat} (h : i + n ≤ s.params.rowBufMax) (k : StepResult) :
    withRowBuf s i n k = k := by
  simp [withRowBuf, Nat.not_lt.2 h]

/-! ## The row loop -/

/-- What the end of a row can do (R179, R185): the next row, or success. -/
theorem nextRow_cases (s : State) :
    ((s.st.row : Int) + 1 < s.st.loadH ∧
      nextRow s = .next ({ s with st := { s.st with row := s.st.row + 1 } }.goto .rowSeek)) ∨
    (s.st.loadH ≤ (s.st.row : Int) + 1 ∧ nextRow s = .next (s.endCommand .ok)) := by
  unfold nextRow finishOk
  by_cases h : (s.st.row : Int) + 1 < s.st.loadH
  · exact .inl ⟨h, if_pos h⟩
  · exact .inr ⟨by omega, if_neg h⟩

/-- The state in which the clip region is latched (R178), before its first row. -/
def State.clipped (s : State) : State :=
  { s with
    st := { s.st with
      loadW := clipLength (s.regs.clipCtrl.getLsbD 0) s.st.width s.regs.maxW
      loadH := clipLength (s.regs.clipCtrl.getLsbD 1) s.st.height s.regs.maxH
      row := 0 } }

/-- What entering the row loop can do (R178, R179): no row, or the first. -/
theorem enterRows_cases (s : State) :
    (s.clipped.st.loadH ≤ 0 ∧ enterRows s = .next (s.clipped.endCommand .ok)) ∨
    (0 < s.clipped.st.loadH ∧ enterRows s = .next (s.clipped.goto .rowSeek)) := by
  by_cases h : s.clipped.st.loadH ≤ 0
  · exact .inl ⟨h, if_pos h⟩
  · exact .inr ⟨by omega, if_neg h⟩

/-- A clip length never exceeds the image's (R178). -/
theorem clipLength_le (e : Bool) (image bound : Word) : clipLength e image bound ≤ image.toInt := by
  unfold clipLength
  split <;> omega

/-! ## Acceptance and turns -/

/-- A command is accepted while BUSY = 0 (R22a). -/
@[simp] theorem accept_idle {s : State} (h : s.regs.status.busy = false) (k : State → State) : accept s k = k s := by
  simp [accept, h]

/-- A CMD write has no effect while BUSY = 1 (R47). -/
@[simp] theorem accept_busy {s : State} (h : s.regs.status.busy = true) (k : State → State) : accept s k = s := by
  simp [accept, h]

@[simp] theorem step_host {s : State} (h : s.turn = .host) : step s = hostStep s.tick := by simp [step, h]

@[simp] theorem step_block {s : State} (h : s.turn = .block) : step s = blockStep s.tick := by simp [step, h]

@[simp] theorem step_reset {s : State} (h : s.turn = .reset) : step s = .next s.tick.resetBlock := by simp [step, h]

/-- A running command moves by the step that ST.step names (R37). -/
theorem blockStep_running {s : State} (h : s.st.op ≠ .none) : blockStep s = runningStep s := by
  unfold blockStep
  cases hs : s.st.op <;> simp_all

/-- An idle block does nothing (R244). -/
theorem blockStep_idle {s : State} (h : s.st.op = .none) : blockStep s = .next s := by simp [blockStep, h]

end Sys2Proof.Machine
end

