-- ==== Sys2Proof/Laws/PerInstr.lean ====
section
/-! SUPPORT. Statements made per instruction, one lemma per constructor of Instr. Family `OneWord`: the opcode map has
exactly one row for the command, and the row's word is the command's encoding, with no reserved bit set (R90 to R92). -/

open Sys2Proof in
/-- The one row of the command in the opcode map, its word, and the word's reserved bits. -/
def Sys2Proof.Laws.OneWord.Statement (i : Instr) : Prop :=
  (opcodeTable.filter fun r => r.instr == i).map (fun r => r.pattern) = [encode i] ∧
    mbzField (encode i) = 0 ∧ opcField (encode i) = i.opc

theorem Sys2Proof.Laws.OneWord.decode : Sys2Proof.Laws.OneWord.Statement Sys2Proof.Instr.decode := by
  unfold Sys2Proof.Laws.OneWord.Statement; decide

theorem Sys2Proof.Laws.OneWord.inspect : Sys2Proof.Laws.OneWord.Statement Sys2Proof.Instr.inspect := by
  unfold Sys2Proof.Laws.OneWord.Statement; decide

theorem Sys2Proof.Laws.OneWord.pack : Sys2Proof.Laws.OneWord.Statement Sys2Proof.Instr.pack := by
  unfold Sys2Proof.Laws.OneWord.Statement; decide

theorem Sys2Proof.Laws.OneWord.unpack : Sys2Proof.Laws.OneWord.Statement Sys2Proof.Instr.unpack := by
  unfold Sys2Proof.Laws.OneWord.Statement; decide

theorem Sys2Proof.Laws.OneWord.blend : Sys2Proof.Laws.OneWord.Statement Sys2Proof.Instr.blend := by
  unfold Sys2Proof.Laws.OneWord.Statement; decide

theorem Sys2Proof.Laws.OneWord.darken : Sys2Proof.Laws.OneWord.Statement Sys2Proof.Instr.darken := by
  unfold Sys2Proof.Laws.OneWord.Statement; decide

theorem Sys2Proof.Laws.OneWord.lighten : Sys2Proof.Laws.OneWord.Statement Sys2Proof.Instr.lighten := by
  unfold Sys2Proof.Laws.OneWord.Statement; decide
end

