-- ==== Sys2Proof/Tests/Slice0.lean ====
section
/-! SUPPORT. Small tests, their expected values taken from spec/95_test_vectors.md or worked out from the rules, and one
witness for each statement of Certificates/Slice0/Obligations.lean that has hypotheses. -/

namespace Sys2Proof.Tests

open Sys2Proof Sys2Proof.Machine

/-! ## Small states -/

/-- Idle after reset, with the parameters of the vectors: "BM", 42 and 4096. -/
def bench : State := { State.reset with params := ⟨0x42, 0x4D, .at42, 4096⟩ }

/-- The host is to move, with this program. -/
def hostTurn (p : List HostAction) : State := { bench with sched := [.host], prog := p }

/-- The latches of a 2x2 image of 24 bits in its row loop. -/
def rowLatches (step : SeqStep) (row col : Nat) : Sequencer :=
  { Sequencer.reset with
    op := .decode, step := step, pixOff := 54, width := 2, height := 2, planes := 1, bpp := 24, bpg := 3, rowStride := 8,
    loadW := 2, loadH := 2, row := row, col := col }

/-- The latches of a 1x1 image of 8 bits with two colours. -/
def paletteLatches (step : SeqStep) (clrUsed : Word) : Sequencer :=
  { Sequencer.reset with
    op := .decode, step := step, pixOff := 62, width := 1, height := 1, planes := 1, bpp := 8, clrUsed := clrUsed,
    bpg := 1, rowStride := 4, palLen := 2, loadW := 1, loadH := 1 }

/-- A command runs, and the block is to move. The source does what `plan` says; the surface accepts. -/
def busyWith (st : Sequencer) (plan : List SrcDraw) : State :=
  { bench with
    regs := { Regs.reset with status := Status.running }
    st := st, src := ⟨[], 0, plan⟩, surf := ⟨[], [.accepts]⟩, sched := [.block] }

/-- A command runs at a step before any latch matters. -/
def busyAt (op : RunningOp) (step : SeqStep) (plan : List SrcDraw) : State :=
  busyWith { Sequencer.reset with op := op, step := step } plan

def bytes4 (w : Word) : List Byte := [w.extractLsb' 0 8, w.extractLsb' 8 8, w.extractLsb' 16 8, w.extractLsb' 24 8]

/-- The file header of FILE E2E-1. -/
def fileHeader : List Byte := [0x42, 0x4D, 0x46, 0, 0, 0, 0, 0, 0, 0, 0x36, 0, 0, 0]

/-- An info header laid out as R104 says, colorsUsed at both offsets as the vectors have it. -/
def infoHeader (w h : Word) (planes bpp comp : Byte) (clrUsed : Word) : List Byte :=
  [0x28, 0, 0, 0] ++ bytes4 w ++ bytes4 h ++ [planes, 0, bpp, 0, comp, 0, 0, 0] ++ List.replicate 8 0 ++
    bytes4 clrUsed ++ bytes4 clrUsed ++ List.replicate 4 0

/-- FILE E2E-1 of 95_test_vectors.md. -/
def fileE2E1 : List Byte :=
  fileHeader ++ infoHeader 2 2 1 24 0 0 ++
    [0x00, 0x00, 0xFF, 0x00, 0xFF, 0x00, 0x00, 0x00] ++ [0xFF, 0x00, 0x00, 0xFF, 0xFF, 0xFF, 0x00, 0x00]

/-- FILE P8 of 95_test_vectors.md. -/
def fileP8 : List Byte :=
  [0x42, 0x4D, 0x4E, 0, 0, 0, 0, 0, 0, 0, 0x3E, 0, 0, 0] ++ infoHeader 5 2 1 8 0 2 ++
    [0x00, 0x00, 0xFF, 0x00, 0xFF, 0x00, 0x00, 0x00] ++ [0, 1, 2, 1, 0, 0, 0, 0] ++ [1, 1, 0, 5, 0, 0, 0, 0]

/-- The pixels of a list of events. -/
def pixels (ev : List Event) : List (Int × Int × Color16) :=
  ev.filterMap fun e => match e with
    | .surfSet x y c => some (x, y, c)
    | .seek _ _ => none
    | .read _ _ => none
    | .release => none

/-- The registers after a step, where there is a next state. -/
def regsAfter (r : StepResult) : Option Regs :=
  match r with
  | .next s => some s.regs
  | .fault _ => none
  | .refused _ => none

/-- The sequencer after a step, where there is a next state. -/
def stAfter (r : StepResult) : Option Sequencer :=
  match r with
  | .next s => some s.st
  | .fault _ => none
  | .refused _ => none

/-- CODEC_RES after a codec command on these operands. -/
def codecRes (i : Instr) (a b f : Word) : Option Word :=
  (regsAfter (exec i { bench with regs := { Regs.reset with codecA := a, codecB := b, codecF := f } })).map (·.codecRes)

/-! ## Decoding: the words of R91, written out from R90 as bits 31:4 (zero) and OPC -/

theorem test_decode_DECODE : decode 0b0000_0000_0000_0000_0000_0000_0000_0001#32 = .ok .decode := by decide
theorem test_decode_INSPECT : decode 0b0000_0000_0000_0000_0000_0000_0000_0010#32 = .ok .inspect := by decide
theorem test_decode_PACK : decode 0b0000_0000_0000_0000_0000_0000_0000_0011#32 = .ok .pack := by decide
theorem test_decode_UNPACK : decode 0b0000_0000_0000_0000_0000_0000_0000_0100#32 = .ok .unpack := by decide
theorem test_decode_BLEND : decode 0b0000_0000_0000_0000_0000_0000_0000_0101#32 = .ok .blend := by decide
theorem test_decode_DARKEN : decode 0b0000_0000_0000_0000_0000_0000_0000_0110#32 = .ok .darken := by decide
theorem test_decode_LIGHTEN : decode 0b0000_0000_0000_0000_0000_0000_0000_0111#32 = .ok .lighten := by decide

/-- Vectors 3.5: the illegal words. -/
theorem test_decode_illegal :
    decode 0x0 = .error .reservedOpcode ∧ decode 0x8 = .error .reservedOpcode ∧ decode 0xF = .error .reservedOpcode ∧
    decode 0x11 = .error .reservedBitsSet ∧ decode 0x80000001 = .error .reservedBitsSet ∧
    decode 0x103 = .error .reservedBitsSet := by decide

theorem test_decodeTableWord : decodeTableWord 32 5 = some .blend ∧ decodeTableWord 32 0x15 = none := by decide

/-! ## WellFormed refuses -/

theorem test_wellFormed_reserved_bit : wellFormedWord 0x00000011 = false := by decide
theorem test_wellFormed_opcode_zero : wellFormedWord 0x00000000 = false := by decide
theorem test_wellFormed_opcode_eight : wellFormedWord 0x00000008 = false := by decide
theorem test_wellFormed_word : wellFormedWord 0x00000007 = true := by decide
theorem test_wellFormed_row_buffer_too_small : ¬(Params.mk 0x42 0x4D .at42 3).wellFormed := by decide
theorem test_wellFormed_row_buffer_too_large : ¬(Params.mk 0x42 0x4D .at42 4294967297).wellFormed := by decide
theorem test_wellFormed_params : bench.params.wellFormed := by decide
theorem test_wellFormed_access : legalAccess .bits16 0 = false ∧ legalAccess .bits32 2 = false := by decide

/-! ## Memory and reset -/

theorem test_reset_memory_wf : State.reset.rowBuf.wf ∧ surfaceWf State.reset.surf.cells := by decide

/-- Writing the value an unlisted address reads as removes the entry. -/
theorem test_memory_canonical : Memory.write (Memory.write [] 5 7) 5 0 = [] := by decide

/-- R113 and program 1 of 95_test_vectors.md: the encoded accesses of RGB, FRAC and a mnemonic. -/
theorem test_asm :
    asmRgb 0x12 0x34 0x56 = [.write .bits32 0x1C 0x00563412] ∧ asmFrac (-65536) = [.write .bits32 0x24 0xFFFF0000] ∧
    asmCommand .unpack = .write .bits32 0x00 0x00000004 := by decide

/-! ## The codec (vectors 3.1 to 3.4) -/

theorem test_pack : codecRes .pack 0xFF563412 0 0 = some 0x0000AA11 := by decide
theorem test_pack_channels : codecRes .pack 0x003264C8 0 0 = some 0x000026CB := by decide
theorem test_unpack : codecRes .unpack 0xFFFF26CB 0 0 = some 0x003064C8 := by decide
theorem test_unpack_white : codecRes .unpack 0x0000FFFF 0 0 = some 0x00F8FCF8 := by decide
theorem test_blend : codecRes .blend 0x1234 0xAA11 0x0000FFFF = some 0x0000F12B := by decide
theorem test_blend_negative : codecRes .blend 0x00F8 0x1F00 0xFFFFFFFF = some 0x00001F00 := by decide
theorem test_darken : codecRes .darken 0x26CB 0 0x00018000 = some 0x0000A9FC := by decide
theorem test_darken_floor : codecRes .darken 0x26CB 0 0x0000FFFF = some 0x000005C3 := by decide
theorem test_lighten : codecRes .lighten 0x26CB 0 0x00008000 = some 0x000092E5 := by decide
theorem test_lighten_negative : codecRes .lighten 0x26CB 0 0xFFFF8000 = some 0x0000A0A8 := by decide

/-! ## The decoder -/

/-- Vector V-S10 (conflict C3): the pixels of FILE E2E-1. -/
theorem test_decode_e2e1 :
    pixels (decodeProgram bench.params bench.regs fileE2E1).1 =
      [(0, 0, 0x1F00), (1, 0, 0xFFFF), (0, 1, 0x00F8), (1, 1, 0xE007)] ∧
    (decodeProgram bench.params bench.regs fileE2E1).2 = .ok := by decide +kernel

/-- FILE P8: palette entries 0x00F8 and 0x1F00, the fallback for the indices 5 and 2. -/
theorem test_decode_p8 :
    pixels (decodeProgram bench.params bench.regs fileP8).1 =
      [(0, 0, 0x1F00), (1, 0, 0x1F00), (2, 0, 0x00F8), (3, 0, 0x0000), (4, 0, 0x00F8),
       (0, 1, 0x00F8), (1, 1, 0x1F00), (2, 1, 0x0000), (3, 1, 0x1F00), (4, 1, 0x00F8)] := by decide +kernel

/-- Vector 3.6: INSPECT of the first 54 bytes of E2E-1 reports 2, 2, 24, 70 and 0. -/
theorem test_inspect_e2e1 :
    inspectRegs Regs.reset (inspectProgram bench.params (fileE2E1.take 54)).2 =
      { Regs.reset with
        status := ⟨false, true, 0, 0⟩
        infoWidth := 2, infoHeight := 2, infoBpp := 24, infoFileSize := 70, infoPalColors := 0 } := by decide +kernel

/-- Vector 3.6: the first 20 bytes of E2E-1 end INSPECT with SHORT_HEADER at the info header. -/
theorem test_inspect_short :
    (inspectProgram bench.params (fileE2E1.take 20)).1.length = 4 ∧
    (match (inspectProgram bench.params (fileE2E1.take 20)).2 with
      | .error o => (Status.completed o).word
      | .ok _ => 0) = 0x00000132 := by decide +kernel

/-- Vector 3.6: a row stride of 4100 is above P_ROWBUF_MAX = 4096, one of 4096 is not. -/
theorem test_row_capacity :
    (decodeProgram bench.params bench.regs (fileHeader ++ infoHeader 1366 1 1 24 0 0)).2 = .unsupported .rowTooLong ∧
    (decodeProgram bench.params bench.regs (fileHeader ++ infoHeader 1365 0 1 24 0 0)).2 = .ok := by decide +kernel

/-! ## The invariant holds of the small states -/

theorem test_inv_bench (p : List HostAction) (sched : List Turn) :
    Invariant { bench with prog := p, sched := sched } where
  params := test_wellFormed_params
  status := .inr (.inl rfl)
  busy := by simp [bench, State.reset, Regs.reset, Status.reset, Sequencer.reset]
  running h := absurd rfl h
  rowBuf := Memory.wf_nil
  rowBufBound _ h := absurd h List.not_mem_nil
  surface := List.Pairwise.nil

theorem test_inv_busy {st : Sequencer} (plan : List SrcDraw) (hop : st.op ≠ .none) (hst : st.Running bench.params) :
    Invariant (busyWith st plan) where
  params := test_wellFormed_params
  status := .inl rfl
  busy := ⟨fun _ => hop, fun _ => rfl⟩
  running _ := hst
  rowBuf := Memory.wf_nil
  rowBufBound _ h := absurd h List.not_mem_nil
  surface := List.Pairwise.nil

theorem test_inRows (step : SeqStep) (row col : Nat) (hrow : row < 2) :
    (rowLatches step row col).InRows bench.params where
  op := rfl
  bpp := .inr rfl
  comp := rfl
  planes := rfl
  width := by simp [rowLatches]
  height := by simp [rowLatches]
  bpg := by simp [rowLatches, bytesPerPixel]
  rowStride := by simp [rowLatches, rowStrideOf, roundUp4]
  fits := by simp [rowLatches, bench]
  palLen h := by simp [rowLatches] at h
  loadW := by simp [rowLatches]
  loadH := by simp [rowLatches]
  row := by simpa [rowLatches] using hrow

theorem test_palette_inRows : (paletteLatches .pixel 2).InRows bench.params where
  op := rfl
  bpp := .inl rfl
  comp := rfl
  planes := rfl
  width := by decide
  height := by decide
  bpg := by decide
  rowStride := by decide
  fits := by decide
  palLen _ := by decide
  loadW := by decide
  loadH := by decide
  row := by decide

theorem test_inv_rows (step : SeqStep) (row col : Nat) (hrow : row < 2) (plan : List SrcDraw)
    (h : step = .rowSeek ∨ step = .rowRead) : Invariant (busyWith (rowLatches step row col) plan) := by
  refine test_inv_busy plan (by simp [rowLatches]) ?_
  rcases h with rfl | rfl
  · exact test_inRows _ _ _ hrow
  · exact test_inRows _ _ _ hrow

theorem test_inv_pixel (row col : Nat) (hrow : row < 2) (hcol : col < 2) (plan : List SrcDraw) :
    Invariant (busyWith (rowLatches .pixel row col) plan) :=
  test_inv_busy plan (by simp [rowLatches]) ⟨test_inRows _ _ _ hrow, by simpa [rowLatches] using hcol⟩

theorem test_inv_header (op : RunningOp) (hop : op ≠ .none) (plan : List SrcDraw) :
    Invariant (busyAt op .seekFH plan) := test_inv_busy plan hop trivial

/-! ## Witnesses: states and operands that meet all hypotheses of a statement -/

theorem test_witness_ResetAbandonsTheCommand : { busyAt .decode .readIH [] with sched := [.reset] }.turn = .reset := rfl

theorem test_witness_StepKeepsInv :
    (∃ t, step { bench with prog := [cmdWrite 1], sched := [.host] } = .next t) ∧
    (∃ t, step (busyAt .decode .seekFH [.reference]) = .next t) ∧
    (∃ t, step { bench with prog := [], sched := [.reset] } = .next t) ∧
    Invariant { bench with prog := [cmdWrite 1], sched := [.host] } ∧ Invariant (busyAt .decode .seekFH [.reference]) ∧
    Invariant { bench with prog := [], sched := [.reset] } :=
  ⟨⟨_, rfl⟩, ⟨_, rfl⟩, ⟨_, rfl⟩, test_inv_bench _ _, test_inv_header _ (by decide) _, test_inv_bench _ _⟩

/-- Both refusals are met, each in a state of the invariant. -/
theorem test_witness_StepNeverFaults :
    step { bench with prog := [.read .bits16 0x04], sched := [.host] } = .refused .hostAccess ∧
    Invariant { bench with prog := [.read .bits16 0x04], sched := [.host] } ∧
    step (busyAt .decode .readFH [.bytes (List.replicate 15 0)]) = .refused .overlongAnswer ∧
    Invariant (busyAt .decode .readFH [.bytes (List.replicate 15 0)]) :=
  ⟨rfl, test_inv_bench _ _, rfl, test_inv_busy _ (by decide) trivial⟩

theorem test_witness_StepKeepsParams : ∃ t, step (hostTurn [.wait]) = .next t := ⟨_, rfl⟩

theorem test_witness_StepRunsTheDecodedCommand :
    (hostTurn [cmdWrite 5]).turn = .host ∧ (hostTurn [cmdWrite 5]).prog = cmdWrite 5 :: [] ∧ decode 5 = .ok .blend ∧
    decodeTableWord 32 7 = some .lighten ∧ (busyAt .decode .seekFH []).turn = .block ∧
    { bench with sched := [.reset] }.turn = .reset := by
  refine ⟨rfl, rfl, by decide, by decide, rfl, rfl⟩

theorem test_witness_DecodeEncodeAgree : decode 0x00000004 = .ok .unpack := by decide

/-- The words at the ends of the illegal ranges. -/
theorem test_witness_IllegalCommandOnlySetsStatus :
    (hostTurn [cmdWrite 0]).turn = .host ∧ (hostTurn [cmdWrite 0]).regs.status.busy = false ∧
    ∀ w ∈ [(0 : Word), 8, 15, 16, 0xFFFFFFFF], ¬(w.toNat < 16 ∧ 1 ≤ w.toNat ∧ w.toNat ≤ 7) := by
  refine ⟨rfl, rfl, by simp⟩

/-- Both sides of each bound. -/
theorem test_witness_IllegalWordsAreRejected :
    wellFormedWord 1 = true ∧ wellFormedWord 7 = true ∧ wellFormedWord 0 = false ∧ wellFormedWord 8 = false ∧
    decode 15 = .error .reservedOpcode ∧ decode 16 = .error .reservedBitsSet := by decide

theorem test_witness_CommandWhileBusyHasNoEffect : (busyAt .decode .readIH []).regs.status.busy = true := rfl

def busyHost (p : List HostAction) : State := { busyAt .inspect .seekFH [] with prog := p, sched := [.host] }

theorem test_witness_BusyWritesAreIgnored :
    Invariant (busyHost [.write .bits32 0x00 1]) ∧ (busyHost [.write .bits32 0x00 1]).turn = .host ∧
    (busyHost [.write .bits32 0x00 1]).regs.status.busy = true ∧
    Invariant (busyHost [.read .bits32 0xFC]) ∧ (busyHost [.read .bits32 0xFC]).prog = [.read .bits32 0xFC] ∧
    (0xFC : BitVec 8).toNat % 4 = 0 := by
  refine ⟨?_, rfl, rfl, ?_, rfl, by decide⟩ <;>
    exact ⟨test_wellFormed_params, .inl rfl, ⟨fun _ => by decide, fun _ => rfl⟩, fun _ => trivial, Memory.wf_nil,
      fun _ h => absurd h List.not_mem_nil, List.Pairwise.nil⟩

/-- An offset for each clause, at the ends of its range; and no offset falls under two clauses. -/
theorem test_witness_IdleWriteStoresItsRegister :
    (hostTurn [.write .bits32 0x08 7]).turn = .host ∧ (hostTurn [.write .bits32 0x08 7]).regs.status.busy = false ∧
    (∀ off ∈ [(0x04 : BitVec 8), 0x08, 0x0C, 0x24, 0x28, 0xFC], off.toNat % 4 = 0 ∧ off ≠ 0x00) ∧
    ∀ off : BitVec 8, ¬(off = 0x08 ∧ 0x0C ≤ off.toNat) ∧ ¬(off = 0x04 ∧ 0x0C ≤ off.toNat) ∧
      ¬(off.toNat ≤ 0x24 ∧ 0x28 ≤ off.toNat) := by
  refine ⟨rfl, rfl, by decide, by decide⟩

theorem test_witness_ReadsHaveNoSideEffect :
    (hostTurn [.read .bits32 0x40]).turn = .host ∧ (0x40 : BitVec 8).toNat % 4 = 0 ∧ (0x00 : BitVec 8).toNat % 4 = 0 ∧
    (0x3C : BitVec 8).toNat % 4 = 0 := by refine ⟨rfl, by decide, by decide, by decide⟩

theorem test_witness_OtherAccessesAreRefused :
    (hostTurn [.read .bits64 0x04]).turn = .host ∧ AccessSize.bits64 ≠ .bits32 ∧
    (hostTurn [.write .bits32 0x05 1]).turn = .host ∧ (0x05 : BitVec 8).toNat % 4 ≠ 0 := by
  refine ⟨rfl, by decide, rfl, by decide⟩

theorem test_witness_WaitPollsStatus :
    (hostTurn [.wait]).turn = .host ∧ (busyHost [.wait]).turn = .host ∧
    (hostTurn [.wait]).regs.status.busy = false ∧ (busyHost [.wait]).regs.status.busy = true := ⟨rfl, rfl, rfl, rfl⟩

theorem test_witness_HostBindsThePorts :
    (hostTurn [.bindSource ⟨fileE2E1, 0, []⟩]).turn = .host ∧ (hostTurn [.bindSurface [⟨0, 0, 1⟩, ⟨0, 0, 2⟩] []]).turn = .host :=
  ⟨rfl, rfl⟩

/-- PACK, UNPACK, BLEND, DARKEN, LIGHTEN, INSPECT and DECODE are issued from here. -/
theorem test_witness_idle : bench.regs.status.busy = false := rfl

def blendBench (f : Word) : State := { bench with regs := { Regs.reset with codecA := 0x1234, codecB := 0xAA11, codecF := f } }

/-- A fraction for each clause, at the ends of its range. -/
theorem test_witness_BlendResult :
    (blendBench 0).regs.codecF.toInt ≤ 0 ∧ 65536 ≤ (blendBench 65536).regs.codecF.toInt ∧
    (0 < (blendBench 1).regs.codecF.toInt ∧ (blendBench 1).regs.codecF.toInt < 65536) ∧
    (0 < (blendBench 65535).regs.codecF.toInt ∧ (blendBench 65535).regs.codecF.toInt < 65536) := by decide

theorem test_witness_ColourCornerCases : (0 : Int) ≤ 0 ∧ (65536 : Int) ≤ 65536 ∧ (65536 : Int) < 65537 := by decide

theorem test_witness_PackUnpackLaws : (7 : Byte) ≤ 8 ∧ (255 : Byte) ≤ 255 := by decide

theorem test_witness_CodecCommandsTouchNothingElse :
    Instr.lighten ∈ [Instr.pack, .unpack, .blend, .darken, .lighten] ∧ bench.regs.status.busy = false := by
  refine ⟨by decide, rfl⟩

theorem test_witness_IoErrEndsTheCommand :
    (busyAt .inspect .readIH [.ioErr]).st.op ≠ .none ∧
    (busyAt .inspect .readIH [.ioErr]).failedRequest = some (.read 40 .ioErr) ∧
    (busyAt .inspect .readIH [.ioErr]).srcDraw = .ioErr := by refine ⟨by decide, rfl, rfl⟩

theorem test_witness_UnansweredRequestsWait :
    (busyAt .decode .seekFH [.silent]).st.op ≠ .none ∧
    (busyAt .decode .seekFH [.silent]).failedRequest = some (.seek 0 .ioErr) ∧
    (busyAt .decode .seekFH [.silent]).srcDraw = .silent ∧
    Invariant { busyWith (rowLatches .pixel 0 0) [] with surf := ⟨[], [.silent]⟩ } ∧
    { busyWith (rowLatches .pixel 0 0) [] with surf := ⟨[], [.silent]⟩ }.surfDraw = .silent := by
  refine ⟨by decide, rfl, rfl, ?_, rfl⟩
  have h := test_inv_pixel 0 0 (by decide) (by decide) []
  exact ⟨h.params, h.status, h.busy, h.running, h.rowBuf, h.rowBufBound, List.Pairwise.nil⟩

theorem test_witness_OverlongAnswersAreRefused :
    (busyAt .decode .readFH [.bytes (List.replicate 15 0)]).failedRequest = some (.read 14 .ioErr) ∧
    (busyAt .decode .readFH [.bytes (List.replicate 15 0)]).srcDraw = .bytes (List.replicate 15 0) ∧
    14 < (List.replicate 15 (0 : Byte)).length := by refine ⟨rfl, rfl, by decide⟩

theorem test_witness_ReleaseThenCompletion :
    (busyAt .decode .release []).st.op ≠ .none ∧ (busyAt .decode .release []).st.step = .release ∧
    (busyAt .inspect .complete []).st.step = .complete ∧ (busyAt .inspect .complete []).st.outcome = .ok := by
  refine ⟨by decide, rfl, rfl, rfl⟩

/-- The completion of an INSPECT that latched a width, and a reset that clears one. -/
theorem test_witness_InfoChangesOnlyAtInspectCompletion :
    (∃ t, step (busyWith { Sequencer.reset with op := .inspect, step := .complete, width := 5 } []) = .next t ∧
      t.regs.value .infoWidth ≠
        (busyWith { Sequencer.reset with op := .inspect, step := .complete, width := 5 } []).regs.value .infoWidth) ∧
    ∃ t, step { bench with regs := { Regs.reset with infoWidth := 5 }, sched := [.reset] } = .next t ∧
      t.regs.value .infoWidth ≠ (5 : Word) := by
  refine ⟨⟨_, rfl, by decide⟩, ⟨_, rfl, by decide⟩⟩

/-- The words at the ends of the range of codec words. -/
theorem test_witness_CodecResChangesOnlyByCodecCommands :
    ((regsAfter (step { hostTurn [cmdWrite 3] with regs := { Regs.reset with codecA := 0x08 } })).map (·.codecRes)) =
      some 0x0008#32 ∧
    ((regsAfter (step { hostTurn [cmdWrite 7] with regs := { Regs.reset with codecA := 0x26CB } })).map (·.codecRes)) =
      some 0x26CB#32 := by
  refine ⟨by decide, by decide⟩

theorem test_witness_StatusChangesOnlyAtIssueAndCompletion :
    (∃ t, step (hostTurn [cmdWrite 1]) = .next t ∧ t.regs.status ≠ (hostTurn [cmdWrite 1]).regs.status) ∧
    (∃ t, step (busyAt .decode .complete []) = .next t ∧
      t.regs.status ≠ (busyAt .decode .complete []).regs.status) ∧
    ∃ t, step { busyAt .decode .readIH [] with sched := [.reset] } = .next t ∧ t.regs.status ≠ Status.running := by
  refine ⟨⟨_, rfl, by decide⟩, ⟨_, rfl, by decide⟩, ⟨_, rfl, by decide⟩⟩

theorem test_witness_OnlyRunningCommandsIssueEvents :
    Invariant (busyWith (rowLatches .pixel 0 0) []) ∧
    ∃ t, step (busyWith (rowLatches .pixel 0 0) []) = .next t ∧
      t.trace = (busyWith (rowLatches .pixel 0 0) []).trace ++ [.surfSet 0 0 0] :=
  ⟨test_inv_pixel 0 0 (by decide) (by decide) [], _, rfl, by decide⟩

theorem test_witness_FirstEventSeeksToZero :
    (busyAt .inspect .seekFH [.reference]).st.op ≠ .none ∧ (busyAt .inspect .seekFH [.reference]).AnswersSeek := by
  refine ⟨by decide, ?_⟩
  unfold State.AnswersSeek
  decide

/-- An answer for each clause: no signature (1 byte), 2 and 13 bytes, and 14. -/
theorem test_witness_FileHeaderIsChecked :
    ∀ n ∈ [1, 2, 13, 14], (busyAt .decode .readFH [.bytes (fileHeader.take n)]).AnswersRead 14 (fileHeader.take n) := by
  intro n hn
  refine ⟨?_, .inr rfl⟩
  simp [fileHeader]

/-- An info header for each clause: short, depth 16, compression 1, planes 2, and one that passes. -/
theorem test_witness_HeaderIsValidatedInOrder :
    ∀ ih ∈ [(infoHeader 2 2 1 24 0 0).take 39, infoHeader 2 2 1 16 1 0, infoHeader 2 2 2 24 1 0, infoHeader 2 2 2 8 0 0,
        infoHeader 2 2 1 8 0 0],
      (busyAt .inspect .readIH [.bytes ih]).AnswersRead 40 ih ∧ (busyAt .inspect .readIH [.bytes ih]).st.op ≠ .none := by
  intro ih hih
  refine ⟨⟨?_, .inr rfl⟩, by simp [busyAt, busyWith]⟩
  revert ih
  decide

/-- An info header for each clause: negative width, too long a row, 8 bits, 24 bits with rows, and without. -/
theorem test_witness_DecodeChecksDimensionsAndStride :
    ∀ ih ∈ [infoHeader 0xFFFFFFFF 2 1 24 0 0, infoHeader 1366 1 1 24 0 0, infoHeader 4096 1 1 8 0 0,
        infoHeader 2 1 1 24 0 0, infoHeader 2 0 1 24 0 0],
      ih.length = 40 ∧ (le16 ih 14 = 8 ∨ le16 ih 14 = 24) ∧ le32 ih 16 = 0 ∧ le16 ih 12 = 1 ∧
      (busyAt .decode .readIH [.bytes ih]).AnswersRead 40 ih := by
  intro ih hih
  have h : ih.length = 40 ∧ (le16 ih 14 = 8 ∨ le16 ih 14 = 24) ∧ le32 ih 16 = 0 ∧ le16 ih 12 = 1 := by
    revert ih
    decide
  exact ⟨h.1, h.2.1, h.2.2.1, h.2.2.2, by omega, .inr rfl⟩

/-- The two info headers differ in the size field and at the last byte. -/
theorem test_witness_IgnoredHeaderBytesNeverMatter :
    (busyAt .decode .readIH []).st.op ≠ .none ∧
    (infoHeader 2 2 1 24 0 0).length = 40 ∧ ([0, 9, 9, 9] ++ ((infoHeader 2 2 1 24 0 0).drop 4).take 35 ++ [9]).length = 40 ∧
    ∀ i : Fin 40, (4 ≤ i.val ∧ i.val < 20) ∨ (28 ≤ i.val ∧ i.val < 32) →
      (infoHeader 2 2 1 24 0 0)[i.val]? =
        ([0, 9, 9, 9] ++ ((infoHeader 2 2 1 24 0 0).drop 4).take 35 ++ [9])[i.val]? := by
  refine ⟨by decide, by decide, by decide, by decide⟩

theorem test_witness_RowStrideRoundsUp : 0 ≤ (0 : Word).toInt ∧ 0 ≤ (0x7FFFFFFF : Word).toInt := by decide

/-- A short palette, a palette of 2, one of 256 (colorsUsed 0) and one of 257. -/
theorem test_witness_PaletteIsBuilt :
    (busyWith (paletteLatches .seekPal 2) [.reference]).AnswersSeek ∧
    (busyWith (paletteLatches .readPal 2) [.bytes [1]]).AnswersRead (4 * 2) [1] ∧
    (busyWith (paletteLatches .readPal 2) [.bytes (List.replicate 8 0)]).AnswersRead (4 * 2) (List.replicate 8 0) ∧
    (busyWith (paletteLatches .readPal 0) [.bytes (List.replicate 1024 0)]).AnswersRead (4 * 256)
      (List.replicate 1024 0) ∧
    (busyWith (paletteLatches .readPal 257) [.bytes (List.replicate 1028 0)]).AnswersRead (4 * 257)
      (List.replicate 1028 0) := by
  refine ⟨?_, ⟨by simp, .inr rfl⟩, ⟨by rw [List.length_replicate], .inr rfl⟩, ⟨by rw [List.length_replicate], .inr rfl⟩,
    ⟨by rw [List.length_replicate], .inr rfl⟩⟩
  unfold State.AnswersSeek
  exact ⟨nofun, nofun⟩

/-- A running command under a height bound of 0, for the clauses in which the clip region has no row. -/
def noRows (st : Sequencer) (plan : List SrcDraw) : State :=
  { busyWith st plan with regs := { Regs.reset with status := Status.running, clipCtrl := 2, maxH := 0 } }

theorem test_witness_noRows :
    (noRows (paletteLatches .readPal 2) [.bytes (List.replicate 8 0)]).AnswersRead (4 * 2) (List.replicate 8 0) ∧
    (noRows { Sequencer.reset with op := .decode, step := .readIH } [.bytes (infoHeader 2 2 1 24 0 0)]).AnswersRead 40
      (infoHeader 2 2 1 24 0 0) ∧
    (noRows (paletteLatches .readPal 2) []).regs.clipCtrl.getLsbD 1 = true ∧
    min (1 : Word).toInt (noRows (paletteLatches .readPal 2) []).regs.maxH.toInt ≤ 0 ∧
    min (2 : Word).toInt (noRows (paletteLatches .readPal 2) []).regs.maxH.toInt ≤ 0 := by
  refine ⟨⟨by decide, .inr rfl⟩, ⟨by decide, .inr rfl⟩, by decide, by decide, by decide⟩

/-- A height bound of 1 leaves a row, one of 0 none, and a bound that is not enabled does nothing. -/
theorem test_witness_ClipRegion :
    clipLength true 2 1 = 1 ∧ clipLength true 2 0 = 0 ∧ clipLength true 2 0xFFFFFFFB = -5 ∧ clipLength false 2 0 = 2 := by
  decide

theorem test_witness_RowsAreReadBottomUp :
    Invariant (busyWith (rowLatches .rowSeek 0 0) [.reference]) ∧
    (busyWith (rowLatches .rowSeek 0 0) [.reference]).st.op ≠ .none ∧
    (busyWith (rowLatches .rowSeek 0 0) [.reference]).AnswersSeek :=
  ⟨test_inv_rows _ _ _ (by decide) _ (.inl rfl), by simp [busyWith, rowLatches], nofun, nofun⟩

/-- An answer of 7 bytes and one of 8; a clip region with columns, and one without, at the first and the last row. -/
theorem test_witness_RowBufferHoldsTheRow :
    Invariant (busyWith (rowLatches .rowRead 1 0) [.bytes (List.replicate 7 0)]) ∧
    (busyWith (rowLatches .rowRead 1 0) [.bytes (List.replicate 7 0)]).AnswersRead 8 (List.replicate 7 0) ∧
    (busyWith (rowLatches .rowRead 1 0) [.bytes (List.replicate 8 0)]).AnswersRead 8 (List.replicate 8 0) ∧
    ∀ row, row < 2 →
      Invariant (busyWith { rowLatches .rowRead row 0 with loadW := 0 } [.bytes (List.replicate 8 0)]) := by
  refine ⟨test_inv_rows _ _ _ (by decide) _ (.inr rfl), ⟨by decide, .inr rfl⟩, ⟨by decide, .inr rfl⟩, fun row hrow => ?_⟩
  have h := test_inRows .rowRead row 0 hrow
  exact test_inv_busy _ (by simp [rowLatches]) ⟨⟨h.op, h.bpp, h.comp, h.planes, h.width, h.height, h.bpg, h.rowStride, h.fits⟩, h.palLen,
    by simp [rowLatches], h.loadH, h.row⟩

/-- A pixel of each kind: the first and the last column, the first and the last row; and an 8-bit image whose index is
below ST.palLen, and not. -/
theorem test_witness_PixelIsWritten :
    (∀ row col, row < 2 → col < 2 → Invariant (busyWith (rowLatches .pixel row col) [])) ∧
    (∀ idx : Byte, idx ≠ 0 → Invariant { busyWith (paletteLatches .pixel 2) [] with rowBuf := [(0, idx)] } ∧
      { busyWith (paletteLatches .pixel 2) [] with rowBuf := [(0, idx)] }.surfDraw = .accepts) ∧
    ((1 : Byte).toNat < (paletteLatches .pixel 2).palLen ∧ (paletteLatches .pixel 2).palLen ≤ (2 : Byte).toNat) := by
  refine ⟨fun row col hr hc => test_inv_pixel row col hr hc [], fun idx h => ⟨?_, rfl⟩, by decide⟩
  refine ⟨test_wellFormed_params, .inl rfl, ⟨fun _ => nofun, fun _ => rfl⟩, fun _ => ⟨test_palette_inRows, ?_⟩, ?_, ?_, List.Pairwise.nil⟩
  · show ((paletteLatches .pixel 2).col : Int) < (paletteLatches .pixel 2).loadW
    decide
  · exact ⟨List.pairwise_singleton _ _, by simpa [Memory.unlisted] using h⟩
  · simp [busyWith, bench]

theorem test_witness_SurfaceKeepsTheLastWrite :
    Invariant (busyWith (rowLatches .pixel 1 1) []) ∧
    (∃ t, step (busyWith (rowLatches .pixel 1 1) []) = .next t ∧
      t.trace = (busyWith (rowLatches .pixel 1 1) []).trace ++ [.surfSet 1 1 0]) ∧
    Invariant { bench with prog := [.wait], sched := [.host] } ∧
    ∃ t, step { bench with prog := [.wait], sched := [.host] } = .next t ∧ t.trace = [] :=
  ⟨test_inv_pixel 1 1 (by decide) (by decide) [], ⟨_, rfl, by decide⟩, test_inv_bench _ _, _, rfl, rfl⟩

/-- A bench on which `n` steps of the block are answered, the source being this file. -/
def cooperative (file : List Byte) (n : Nat) : State :=
  { bench with
    src := ⟨file, 0, List.replicate n .reference⟩, surf := ⟨[], List.replicate n .accepts⟩
    sched := List.replicate n .block }

theorem test_cooperates (file : List Byte) (n : Nat) : (cooperative file n).Cooperates n := by
  unfold State.Cooperates
  simp [cooperative]

theorem test_inv_cooperative (file : List Byte) (n : Nat) : Invariant (cooperative file n) where
  params := test_wellFormed_params
  status := .inr (.inl rfl)
  busy := (test_inv_bench [] []).busy
  running h := absurd rfl h
  rowBuf := Memory.wf_nil
  rowBufBound _ h := absurd h List.not_mem_nil
  surface := List.Pairwise.nil

/-- INSPECT of E2E-1 has 4 events. -/
theorem test_witness_InspectRunsItsPseudocode :
    (cooperative fileE2E1 5).regs.status.busy = false ∧
    (inspectProgram bench.params fileE2E1).1.length + 1 = 5 ∧ (cooperative fileE2E1 5).Cooperates 5 :=
  ⟨rfl, by decide +kernel, test_cooperates _ _⟩

/-- DECODE of E2E-1 has 12 events (R191). -/
theorem test_witness_DecodeRunsItsPseudocode :
    Invariant (cooperative fileE2E1 13) ∧ (cooperative fileE2E1 13).regs.status.busy = false ∧
    (decodeProgram bench.params bench.regs fileE2E1).1.length + 1 = 13 ∧ (cooperative fileE2E1 13).Cooperates 13 :=
  ⟨test_inv_cooperative _ _, rfl, by decide +kernel, test_cooperates _ _⟩

/-- A 24-bit and an 8-bit image that both succeed. -/
theorem test_witness_SuccessfulTraceShape :
    (decodeProgram bench.params bench.regs fileE2E1).2 = .ok ∧ (decodeProgram bench.params bench.regs fileP8).2 = .ok ∧
    ((headerProgram bench.params fileE2E1).2.toOption.map (·.width)) = some 2 ∧
    ((inspectProgram bench.params fileP8).2.toOption.map (·.bpp)) = some 8 := by decide +kernel

/-- A source that INSPECT passes for each outcome of DECODE. -/
theorem test_witness_InspectPrevalidates :
    (∀ S ∈ [fileE2E1, fileHeader ++ infoHeader 0xFFFFFFFE 2 1 24 0 0, fileHeader ++ infoHeader 1366 1 1 24 0 0,
        fileP8.take 58, fileE2E1.take 54], (inspectProgram bench.params S).2.isOk = true) ∧
    (decodeProgram bench.params bench.regs (fileP8.take 58)).2 = .format .truncatedPalette ∧
    (decodeProgram bench.params bench.regs (fileE2E1.take 54)).2 = .format .truncatedRow := by decide +kernel

theorem test_witness_DecodeWritesWholeRows :
    (bench.regs.status.busy = false ∧ ∃ t, exec .decode bench = .next t) ∧
    Invariant (busyWith (rowLatches .pixel 0 0) []) ∧ (busyWith (rowLatches .pixel 0 0) []).turn ≠ .reset ∧
    DecodeWrote 0 (busyWith (rowLatches .pixel 0 0) []) ∧ ∃ t, step (busyWith (rowLatches .pixel 0 0) []) = .next t :=
  ⟨⟨rfl, _, rfl⟩, test_inv_pixel 0 0 (by decide) (by decide) [], nofun, rfl, _, rfl⟩

theorem test_witness_AnsweredStepsMakeProgress :
    Invariant (busyWith (rowLatches .pixel 0 0) [.reference]) ∧
    (busyWith (rowLatches .pixel 0 0) [.reference]).srcDraw ≠ .silent ∧
    (busyWith (rowLatches .pixel 0 0) [.reference]).surfDraw ≠ .silent :=
  ⟨test_inv_pixel 0 0 (by decide) (by decide) _, nofun, nofun⟩

/-- Two states before the file header is read that differ in a latch, a palette entry and a byte of ROWBUF. -/
theorem test_witness_ScratchNeverShows :
    Invariant (busyAt .inspect .seekFH []) ∧
    Invariant { busyWith { Sequencer.reset with op := .inspect, width := 9 } [] with
      rowBuf := [(3, 7)], pal := Vector.replicate 256 5 } ∧
    SameButScratch (busyAt .inspect .seekFH []) { busyWith { Sequencer.reset with op := .inspect, width := 9 } [] with
      rowBuf := [(3, 7)], pal := Vector.replicate 256 5 } := by
  refine ⟨test_inv_header _ (by decide) _, ?_, ⟨rfl, rfl, rfl, rfl, rfl, rfl, rfl, rfl, rfl, rfl, fun _ => rfl, fun _ => nofun⟩⟩
  refine ⟨test_wellFormed_params, .inl rfl, ⟨fun _ => nofun, fun _ => rfl⟩, fun _ => trivial,
    ⟨List.pairwise_singleton _ _, by decide⟩, ?_, List.Pairwise.nil⟩
  simp [busyWith, bench]

theorem test_witness_EndedRunsAreFinal : { bench with sched := [.host] }.Ended ∧ { bench with sched := [.host] }.turn ≠ .reset :=
  ⟨⟨rfl, rfl⟩, nofun⟩

theorem test_witness_StepIssuesAtMostOneFittingEvent :
    Invariant (busyWith (rowLatches .rowSeek 0 0) [.reference]) ∧
    ∃ t, step (busyWith (rowLatches .rowSeek 0 0) [.reference]) = .next t ∧ t.trace = [.seek 62 .ok] :=
  ⟨test_inv_rows _ _ _ (by decide) _ (.inl rfl), _, rfl, by decide⟩

end Sys2Proof.Tests
end

section
/-! The row stride and the little-endian numbers of the container. -/

namespace Sys2Proof.Machine

open Sys2Proof

/-- The concatenation of two bit vectors as a number: the left one counts from bit `n` on. -/
theorem toNat_append_eq_add {m n : Nat} (x : BitVec m) (y : BitVec n) :
    (x ++ y).toNat = 2 ^ n * x.toNat + y.toNat := by
  rw [BitVec.toNat_append, ← Nat.shiftLeft_add_eq_or_of_lt y.isLt, Nat.shiftLeft_eq, Nat.mul_comm]

theorem le16_toNat (b : List Byte) (o : Nat) :
    (le16 b o).toNat = (byteAt b o).toNat + 256 * (byteAt b (o + 1)).toNat := by
  rw [le16, toNat_append_eq_add]
  omega

theorem le32_toNat (b : List Byte) (o : Nat) :
    (le32 b o).toNat = (byteAt b o).toNat + 2 ^ 8 * (byteAt b (o + 1)).toNat +
      2 ^ 16 * (byteAt b (o + 2)).toNat + 2 ^ 24 * (byteAt b (o + 3)).toNat := by
  rw [le32, toNat_append_eq_add, toNat_append_eq_add, toNat_append_eq_add]
  omega

/-- `roundUp4` is `cdiv(a, 4) * 4`, with the `cdiv(a, b) = -fdiv(-a, b)` of R13. -/
theorem roundUp4_eq_cdiv (a : Nat) : (roundUp4 a : Int) = -((-(a : Int)).fdiv 4) * 4 := by
  rw [roundUp4, Int.fdiv_eq_ediv_of_nonneg _ (by decide)]
  omega

theorem le_roundUp4 (a : Nat) : a ≤ roundUp4 a := by
  rw [roundUp4]
  omega

theorem roundUp4_le (a : Nat) : roundUp4 a ≤ a + 3 := Nat.div_mul_le_self (a + 3) 4

end Sys2Proof.Machine

open Sys2Proof Sys2Proof.Machine

/-- Settles O39: each byte appended on the left counts from the next byte place on. -/
theorem littleEndianAssembly : Obligations.LittleEndianAssembly := by
  unfold Obligations.LittleEndianAssembly
  exact fun b o => ⟨le16_toNat b o, le32_toNat b o⟩

/-- Settles O45: the bytes of a row of a non-negative width are a natural number, and `roundUp4` rounds it up. -/
theorem rowStrideRoundsUp : Obligations.RowStrideRoundsUp := by
  unfold Obligations.RowStrideRoundsUp
  intro width bpg hw
  have hbytes : width.toInt * bpg = ((width.toInt.toNat * bpg : Nat) : Int) := by
    rw [Nat.cast_mul, Int.toNat_of_nonneg hw]
  rw [hbytes, rowStrideOf]
  exact ⟨roundUp4_eq_cdiv _, by exact_mod_cast le_roundUp4 _, by exact_mod_cast roundUp4_le _⟩

end

section
/-! What every step keeps: a predicate on the states a step can end in, with one rule per shared operation, and with it
the frame of the sequencer's steps and the parameters (R10). -/

namespace Sys2Proof.Machine

open Sys2Proof

/-! ## Where a step ends -/

/-- Whatever state a step ends in has `P`; a fault or a refusal ends in none. -/
def EndsIn (P : State → Prop) (r : StepResult) : Prop := ∀ t, r = .next t → P t

section Rules

variable {P : State → Prop} {s : State}

@[simp] theorem endsIn_next : EndsIn P (.next s) ↔ P s := by simp [EndsIn]

@[simp] theorem endsIn_fault (f : Fault) : EndsIn P (.fault f) := by simp [EndsIn]

@[simp] theorem endsIn_refused (r : Refusal) : EndsIn P (.refused r) := by simp [EndsIn]

theorem endsIn_ite {c : Prop} [Decidable c] {a b : StepResult} (ha : c → EndsIn P a) (hb : ¬c → EndsIn P b) :
    EndsIn P (if c then a else b) := by
  split
  · exact ha ‹_›
  · exact hb ‹_›

/-- A SEEK waits, fails, or goes on (R62, R66). -/
theorem endsIn_srcSeek {o : Nat} {k : State → StepResult} (hwait : P s.useSrcDraw)
    (hfail : P (s.requestFailed (.seek o .ioErr))) (hdone : EndsIn P (k (s.seekDone o))) :
    EndsIn P (srcSeek s o k) := by
  obtain ⟨-, h⟩ | ⟨-, h⟩ | ⟨-, -, h⟩ := srcSeek_cases s o k
  · rwa [h, endsIn_next]
  · rwa [h, endsIn_next]
  · rwa [h]

/-- A READ waits, fails, is refused, or goes on with at most `n` bytes (R63, R66). -/
theorem endsIn_srcRead {n : Nat} {k : State → List Byte → StepResult} (hwait : P s.useSrcDraw)
    (hfail : P (s.requestFailed (.read n .ioErr)))
    (hdone : ∀ b : List Byte, b.length ≤ n → EndsIn P (k (s.readDone n b) b)) : EndsIn P (srcRead s n k) := by
  obtain ⟨-, h⟩ | ⟨-, h⟩ | ⟨h, -⟩ | ⟨-, -, b, hb, -, h⟩ := srcRead_cases s n k
  · rwa [h, endsIn_next]
  · rwa [h, endsIn_next]
  · rw [h]
    exact endsIn_refused _
  · rw [h]
    exact hdone b hb

/-- A SurfSet waits, or goes on (R68). -/
theorem endsIn_surfSet {x y : Int} {c : Color16} {k : State → StepResult} (hwait : P s.useSurfDraw)
    (hdone : EndsIn P (k (s.pixelDone x y c))) : EndsIn P (surfSet s x y c k) := by
  obtain ⟨-, h⟩ | ⟨-, h⟩ := surfSet_cases s x y c k
  · rwa [h, endsIn_next]
  · rwa [h]

theorem endsIn_writeRowBuf {b : List Byte} {k : State → StepResult}
    (hfits : b.length ≤ s.params.rowBufMax → EndsIn P (k { s with rowBuf := s.rowBuf.writeBytes 0 b })) :
    EndsIn P (writeRowBuf s b k) :=
  endsIn_ite (fun _ => endsIn_fault _) fun h => hfits (Nat.not_lt.1 h)

theorem endsIn_withRowBuf {i n : Nat} {k : StepResult} (hk : EndsIn P k) : EndsIn P (withRowBuf s i n k) :=
  endsIn_ite (fun _ => endsIn_fault _) fun _ => hk

/-- The end of a row: the next row, or success (R179, R185). -/
theorem endsIn_nextRow
    (hnext : (s.st.row : Int) + 1 < s.st.loadH →
      P ({ s with st := { s.st with row := s.st.row + 1 } }.goto .rowSeek))
    (hlast : P (s.endCommand .ok)) : EndsIn P (nextRow s) := by
  obtain ⟨hlt, h⟩ | ⟨-, h⟩ := nextRow_cases s
  · rw [h, endsIn_next]
    exact hnext hlt
  · rwa [h, endsIn_next]

/-- The start of the row loop: no row, or the first (R178, R179). -/
theorem endsIn_enterRows (hempty : P (s.clipped.endCommand .ok))
    (hfirst : 0 < s.clipped.st.loadH → P (s.clipped.goto .rowSeek)) : EndsIn P (enterRows s) := by
  obtain ⟨-, h⟩ | ⟨hpos, h⟩ := enterRows_cases s
  · rwa [h, endsIn_next]
  · rw [h, endsIn_next]
    exact hfirst hpos

/-- A command acts on the idle block, and does nothing to a busy one (R22a, R47). -/
theorem endsIn_accept {k : State → State} (hbusy : s.regs.status.busy = true → P s)
    (hidle : s.regs.status.busy = false → P (k s)) : EndsIn P (.next (accept s k)) := by
  cases h : s.regs.status.busy with
  | true => simpa [h] using hbusy h
  | false => simpa [h] using hidle h

end Rules

/-! ## The frame of the sequencer's steps -/

/-- What a step of a running command leaves as it is, up to its completion: all of the block but ST's latches, PAL and
ROWBUF, and all of the host. -/
structure SequencerFrame where
  params : Params
  regs : Regs
  op : RunningOp
  prog : List HostAction
  reads : List ReadRecord
  sched : List Turn
  ticks : Nat

def State.sequencerFrame (s : State) : SequencerFrame :=
  ⟨s.params, s.regs, s.st.op, s.prog, s.reads, s.sched, s.ticks⟩

/-- The step ends in a state with the frame of `s`. -/
abbrev KeepsFrame (s : State) (r : StepResult) : Prop := EndsIn (fun t => t.sequencerFrame = s.sequencerFrame) r

variable (s : State)

theorem stepSeekFH_keepsFrame : KeepsFrame s (stepSeekFH s) := endsIn_srcSeek rfl rfl (endsIn_next.2 rfl)

theorem stepReadFH_keepsFrame : KeepsFrame s (stepReadFH s) :=
  endsIn_srcRead rfl rfl fun _ _ =>
    endsIn_ite (fun _ => endsIn_next.2 rfl) fun _ =>
      endsIn_ite (fun _ => endsIn_next.2 rfl) fun _ => endsIn_next.2 rfl

theorem enterRows_keepsFrame : KeepsFrame s (enterRows s) := endsIn_enterRows rfl fun _ => rfl

theorem startTransfer_keepsFrame : KeepsFrame s (startTransfer s) :=
  endsIn_ite (fun _ => endsIn_next.2 rfl) fun _ =>
    endsIn_ite (fun _ => endsIn_next.2 rfl) fun _ =>
      endsIn_ite (fun _ => endsIn_next.2 rfl) fun _ => enterRows_keepsFrame s.latchStride

theorem stepReadIH_keepsFrame : KeepsFrame s (stepReadIH s) := by
  refine endsIn_srcRead rfl rfl fun ih _ => endsIn_ite (fun _ => endsIn_next.2 rfl) fun _ => ?_
  dsimp only
  split
  · exact endsIn_next.2 rfl
  · exact endsIn_ite (fun _ => endsIn_next.2 rfl) fun _ => startTransfer_keepsFrame _

theorem stepSeekPal_keepsFrame : KeepsFrame s (stepSeekPal s) := endsIn_srcSeek rfl rfl (endsIn_next.2 rfl)

theorem stepReadPal_keepsFrame : KeepsFrame s (stepReadPal s) :=
  endsIn_srcRead rfl rfl fun _ _ => endsIn_ite (fun _ => endsIn_next.2 rfl) fun _ => enterRows_keepsFrame _

theorem stepRowSeek_keepsFrame : KeepsFrame s (stepRowSeek s) := endsIn_srcSeek rfl rfl (endsIn_next.2 rfl)

theorem nextRow_keepsFrame : KeepsFrame s (nextRow s) := endsIn_nextRow (fun _ => rfl) rfl

theorem stepRowRead_keepsFrame : KeepsFrame s (stepRowRead s) :=
  endsIn_srcRead rfl rfl fun _ _ =>
    endsIn_ite (fun _ => endsIn_next.2 rfl) fun _ => endsIn_writeRowBuf fun _ =>
      endsIn_ite (fun _ => nextRow_keepsFrame _) fun _ => endsIn_next.2 rfl

theorem stepPixel_keepsFrame : KeepsFrame s (stepPixel s) :=
  endsIn_withRowBuf <| endsIn_surfSet rfl <|
    endsIn_ite (fun _ => endsIn_next.2 rfl) fun _ => nextRow_keepsFrame _

theorem stepRelease_keepsFrame : KeepsFrame s (stepRelease s) := endsIn_next.2 rfl

/-- The frame of every step of a running command but its completion (R231). -/
theorem runningStep_keepsFrame {s : State} (h : s.st.step ≠ .complete) : KeepsFrame s (runningStep s) := by
  unfold runningStep
  split
  · exact stepSeekFH_keepsFrame s
  · exact stepReadFH_keepsFrame s
  · exact stepReadIH_keepsFrame s
  · exact stepSeekPal_keepsFrame s
  · exact stepReadPal_keepsFrame s
  · exact stepRowSeek_keepsFrame s
  · exact stepRowRead_keepsFrame s
  · exact stepPixel_keepsFrame s
  · exact stepRelease_keepsFrame s
  · contradiction

/-- The completion step of a running command (R231). -/
theorem runningStep_complete {s : State} (h : s.st.step = .complete) : runningStep s = .next s.completeCommand := by
  simp [runningStep, h, stepComplete]

/-! ## The parameters -/

/-- The step ends in a state with the parameters of `s`. -/
abbrev KeepsParams (s : State) (r : StepResult) : Prop := EndsIn (fun t => t.params = s.params) r

theorem blockStep_keepsParams : KeepsParams s (blockStep s) := by
  by_cases hop : s.st.op = .none
  · rw [blockStep_idle hop]
    exact endsIn_next.2 rfl
  rw [blockStep_running hop]
  by_cases hstep : s.st.step = .complete
  · rw [runningStep_complete hstep]
    exact endsIn_next.2 rfl
  · exact fun t ht => congrArg SequencerFrame.params (runningStep_keepsFrame hstep t ht)

theorem exec_keepsParams (i : Instr) : KeepsParams s (exec i s) := by
  cases i <;> exact endsIn_accept (fun _ => rfl) fun _ => rfl

theorem writeCmd_keepsParams (w : Word) : KeepsParams s (writeCmd s w) := by
  unfold writeCmd
  split
  · exact exec_keepsParams s _
  · exact endsIn_accept (fun _ => rfl) fun _ => rfl

@[simp] theorem State.storeReg_params (g : HostReg) (v : Word) : (s.storeReg g v).params = s.params := by
  unfold State.storeReg
  split <;> rfl

theorem writeOffset_keepsParams (off : BitVec 8) (v : Word) : KeepsParams s (writeOffset s off v) := by
  unfold writeOffset
  split
  · exact writeCmd_keepsParams s v
  · exact endsIn_next.2 (s.storeReg_params _ v)
  · exact endsIn_next.2 rfl

theorem hostAct_keepsParams (a : HostAction) (rest : List HostAction) : KeepsParams s (hostAct s a rest) := by
  cases a with
  | read size off => exact endsIn_ite (fun _ => endsIn_next.2 rfl) fun _ => endsIn_refused _
  | write size off v =>
    exact endsIn_ite (fun _ => writeOffset_keepsParams { s with prog := rest } off v) fun _ => endsIn_refused _
  | wait => exact endsIn_ite (fun _ => endsIn_next.2 rfl) fun _ => endsIn_next.2 rfl
  | bindSource src => exact endsIn_next.2 rfl
  | bindSurface content plan => exact endsIn_next.2 rfl

theorem hostStep_keepsParams : KeepsParams s (hostStep s) := by
  unfold hostStep
  split
  · exact endsIn_next.2 rfl
  · exact hostAct_keepsParams s _ _

theorem step_keepsParams : KeepsParams s (step s) := by
  unfold step
  split
  · exact hostStep_keepsParams s.tick
  · exact blockStep_keepsParams s.tick
  · exact endsIn_next.2 rfl

end Sys2Proof.Machine

/-- Settles O6: no turn writes the parameters, the completion of a command and a reset included. -/
theorem stepKeepsParams : Obligations.StepKeepsParams := Sys2Proof.Machine.step_keepsParams

end

section
/-! Every step keeps the invariant. The clauses that do not speak of the latches hold in every state between two events;
the latches are described anew for the event that comes next. -/

namespace Sys2Proof.Machine

open Sys2Proof

/-! ## The clauses that do not speak of the latches -/

/-- The invariant but for the latches of a running command. -/
structure State.Sound (s : State) : Prop where
  params : s.params.wellFormed
  status : s.regs.status.legal
  busy : s.regs.status.busy = true ↔ s.st.op ≠ .none
  rowBuf : s.rowBuf.wf
  rowBufBound : ∀ c ∈ s.rowBuf, c.1 < s.params.rowBufMax
  surface : surfaceWf s.surf.cells

theorem Invariant.sound {s : State} (h : Invariant s) : s.Sound := { h with }

theorem State.Sound.invariant {s : State} (h : s.Sound) (hrun : s.st.op ≠ .none → s.st.Running s.params) :
    Invariant s := { h with running := hrun }

section Sound

variable {s t : State}

/-- `Sound` reads the parameters, STATUS, ST.op, ROWBUF and the surface's content, and nothing else. -/
theorem State.Sound.of_same (h : s.Sound) (hp : t.params = s.params) (hr : t.regs.status = s.regs.status)
    (hop : t.st.op = s.st.op) (hb : t.rowBuf = s.rowBuf) (hc : surfaceWf t.surf.cells) : t.Sound where
  params := hp ▸ h.params
  status := hr ▸ h.status
  busy := by rw [hr, hop, h.busy]
  rowBuf := hb ▸ h.rowBuf
  rowBufBound := by
    rw [hp, hb]
    exact h.rowBufBound
  surface := hc

theorem State.Sound.seekDone (h : s.Sound) (o : Nat) : (s.seekDone o).Sound := h.of_same rfl rfl rfl rfl h.surface

theorem State.Sound.readDone (h : s.Sound) (n : Nat) (b : List Byte) : (s.readDone n b).Sound :=
  h.of_same rfl rfl rfl rfl h.surface

theorem State.Sound.pixelDone (h : s.Sound) (x y : Int) (c : Color16) : (s.pixelDone x y c).Sound :=
  h.of_same rfl rfl rfl rfl (surfaceWf_write h.surface _)

theorem State.Sound.withSt (h : s.Sound) (st : Sequencer) (hop : st.op = s.st.op) : { s with st := st }.Sound :=
  h.of_same rfl rfl hop rfl h.surface

/-- A row that fits P_ROWBUF_MAX keeps ROWBUF canonical and within its capacity (R42). -/
theorem State.Sound.writeRow (h : s.Sound) {b : List Byte} (hb : b.length ≤ s.params.rowBufMax) :
    { s with rowBuf := s.rowBuf.writeBytes 0 b }.Sound where
  params := h.params
  status := h.status
  busy := h.busy
  rowBuf := Memory.wf_writeBytes h.rowBuf 0 b
  rowBufBound c hc := by
    obtain hc | ⟨-, hc⟩ := Memory.mem_writeBytes hc
    · exact h.rowBufBound c hc
    · show c.1 < s.params.rowBufMax
      omega
  surface := h.surface

theorem State.Sound.op_none (h : s.Sound) (hidle : s.regs.status.busy = false) : s.st.op = .none := by
  by_contra hop
  simp [h.busy.2 hop] at hidle

/-- The latches are described for the event that comes next (R37). -/
theorem State.Sound.goto (h : s.Sound) {q : SeqStep} (hrun : { s.st with step := q }.Running s.params) :
    Invariant (s.goto q) := (h.withSt { s.st with step := q } rfl).invariant fun _ => hrun

/-- A command ends with an outcome that it can end with (R17, R171). -/
theorem State.Sound.endCommand (h : s.Sound) {o : CmdOutcome} (ho : o ≠ .illegal)
    (hinspect : s.st.op = .inspect → inspectOutcome o) : Invariant (s.endCommand o) :=
  (h.withSt { s.st with outcome := o, step := .release } rfl).invariant fun _ => ⟨ho, hinspect⟩

theorem State.Sound.endDecode (h : s.Sound) {o : CmdOutcome} (ho : o ≠ .illegal) (hop : s.st.op = .decode) :
    Invariant (s.endCommand o) := h.endCommand ho (by simp [hop])

end Sound

/-! ## What the ports and the host leave to the invariant -/

section Ports

variable {s t : State}

theorem Invariant.of_same (h : Invariant s) (hp : t.params = s.params) (hr : t.regs.status = s.regs.status)
    (hst : t.st = s.st) (hb : t.rowBuf = s.rowBuf) (hc : surfaceWf t.surf.cells) : Invariant t :=
  (h.sound.of_same hp hr (hst ▸ rfl) hb hc).invariant (by
    rw [hst, hp]
    exact h.running)

theorem Invariant.requestFailed (h : Invariant s) (e : Event) : Invariant (s.requestFailed e) :=
  (h.sound.of_same (t := s.useSrcDraw.log e) rfl rfl rfl rfl h.surface).endCommand nofun fun _ => trivial

theorem srcSeek_keepsInv (h : Invariant s) {o : Nat} {k : State → StepResult}
    (hdone : (s.seekDone o).Sound → EndsIn Invariant (k (s.seekDone o))) :
    EndsIn Invariant (srcSeek s o k) :=
  endsIn_srcSeek (h.of_same rfl rfl rfl rfl h.surface) (h.requestFailed _) (hdone (h.sound.seekDone o))

theorem srcRead_keepsInv (h : Invariant s) {n : Nat} {k : State → List Byte → StepResult}
    (hdone : ∀ b : List Byte, b.length ≤ n → (s.readDone n b).Sound → EndsIn Invariant (k (s.readDone n b) b)) :
    EndsIn Invariant (srcRead s n k) :=
  endsIn_srcRead (h.of_same rfl rfl rfl rfl h.surface) (h.requestFailed _) fun b hb =>
    hdone b hb (h.sound.readDone n b)

theorem surfSet_keepsInv (h : Invariant s) {x y : Int} {c : Color16} {k : State → StepResult}
    (hdone : (s.pixelDone x y c).Sound → EndsIn Invariant (k (s.pixelDone x y c))) :
    EndsIn Invariant (surfSet s x y c k) :=
  endsIn_surfSet (h.of_same rfl rfl rfl rfl h.surface) (hdone (h.sound.pixelDone x y c))

end Ports

/-! ## The steps of a running command -/

section Running

variable {s : State}

theorem stepSeekFH_keepsInv (h : Invariant s) : EndsIn Invariant (stepSeekFH s) :=
  srcSeek_keepsInv h fun hs => endsIn_next.2 (hs.goto trivial)

theorem stepReadFH_keepsInv (h : Invariant s) : EndsIn Invariant (stepReadFH s) :=
  srcRead_keepsInv h fun fh _ hs =>
    endsIn_ite (fun _ => endsIn_next.2 (hs.endCommand nofun fun _ => trivial)) fun _ =>
      endsIn_ite (fun _ => endsIn_next.2 (hs.endCommand nofun fun _ => trivial)) fun _ =>
        endsIn_next.2 ((hs.withSt (s.latchFileHeader fh).st rfl).goto trivial)

/-- The row loop starts below the image's bounds (R178, R179). -/
theorem enterRows_keepsInv (h : s.Sound) (ht : s.st.Transferring s.params)
    (hpal : s.st.bpp = 8 → s.st.palLen = paletteCount s.st.clrUsed) : EndsIn Invariant (enterRows s) := by
  have hclipped : s.clipped.Sound := h.withSt _ rfl
  refine endsIn_enterRows (hclipped.endDecode nofun ht.op) fun hpos => hclipped.goto ?_
  exact { ht with palLen := hpal, loadW := clipLength_le .., loadH := clipLength_le .., row := hpos }

/-- DECODE transfers only an image it has validated, of a size and a row length it can hold (R172 to R174). -/
theorem startTransfer_keepsInv (h : s.Sound) (hop : s.st.op = .decode) (hbpp : s.st.bpp = 8 ∨ s.st.bpp = 24)
    (hcomp : s.st.comp = 0) (hplanes : s.st.planes = 1) : EndsIn Invariant (startTransfer s) := by
  have hstride : s.latchStride.Sound := h.withSt _ rfl
  refine endsIn_ite (fun _ => endsIn_next.2 (h.endDecode nofun hop)) fun hdim => ?_
  refine endsIn_ite (fun _ => endsIn_next.2 (hstride.endDecode nofun hop)) fun hfits => ?_
  rw [not_or, Int.not_lt, Int.not_lt] at hdim
  have ht : s.latchStride.st.Transferring s.latchStride.params :=
    ⟨hop, hbpp, hcomp, hplanes, hdim.1, hdim.2, rfl, rfl, Nat.not_lt.1 hfits⟩
  exact endsIn_ite (fun h8 => endsIn_next.2 (hstride.goto ⟨{ ht with }, h8⟩)) fun h8 =>
    enterRows_keepsInv hstride ht fun h8' => absurd h8' h8

/-- What the validation can report (R168): a failure that INSPECT reports too, or an image that DECODE transfers. -/
theorem validateFormat_cases (bpp : BitVec 16) (comp : Word) (planes : BitVec 16) :
    (∃ k, validateFormat bpp comp planes = some k ∧ inspectOutcome (.format k)) ∨
    (validateFormat bpp comp planes = none ∧ (bpp = 8 ∨ bpp = 24) ∧ comp = 0 ∧ planes = 1) := by
  unfold validateFormat
  split
  · exact .inl ⟨_, rfl, trivial⟩
  split
  · exact .inl ⟨_, rfl, trivial⟩
  split
  · exact .inl ⟨_, rfl, trivial⟩
  · exact .inr ⟨rfl, by tauto, by tauto, by tauto⟩

theorem RunningOp.eq_decode {op : RunningOp} (hnone : op ≠ .none) (hinspect : op ≠ .inspect) : op = .decode := by
  cases op with
  | none => exact absurd rfl hnone
  | inspect => exact absurd rfl hinspect
  | decode => rfl

theorem stepReadIH_keepsInv (h : Invariant s) (hop : s.st.op ≠ .none) : EndsIn Invariant (stepReadIH s) := by
  refine srcRead_keepsInv h fun ih _ hs => ?_
  refine endsIn_ite (fun _ => endsIn_next.2 (hs.endCommand nofun fun _ => trivial)) fun _ => ?_
  have hlatched : ((s.readDone infoHdrLen ih).latchInfoHeader ih).Sound := hs.withSt _ rfl
  dsimp only
  obtain ⟨k, hk, hinspect⟩ | ⟨hk, hbpp, hcomp, hplanes⟩ :=
    validateFormat_cases (le16 ih 14) (le32 ih 16) (le16 ih 12)
  · simp only [State.latchInfoHeader_st, hk]
    exact endsIn_next.2 (hlatched.endCommand nofun fun _ => hinspect)
  · simp only [State.latchInfoHeader_st, hk]
    refine endsIn_ite (fun _ => endsIn_next.2 (hlatched.endCommand nofun fun _ => trivial)) fun hinspect => ?_
    exact startTransfer_keepsInv hlatched (RunningOp.eq_decode hop hinspect) hbpp hcomp hplanes

theorem stepSeekPal_keepsInv (h : Invariant s) (ht : s.st.Transferring s.params) (h8 : s.st.bpp = 8) :
    EndsIn Invariant (stepSeekPal s) :=
  srcSeek_keepsInv h fun hs => endsIn_next.2 (hs.goto ⟨{ ht with }, h8⟩)

theorem stepReadPal_keepsInv (h : Invariant s) (ht : s.st.Transferring s.params) :
    EndsIn Invariant (stepReadPal s) :=
  srcRead_keepsInv h fun _ _ hs => endsIn_ite (fun _ => endsIn_next.2 (hs.endDecode nofun ht.op)) fun _ =>
    enterRows_keepsInv (hs.of_same rfl rfl rfl rfl hs.surface) { ht with } fun _ => rfl

theorem stepRowSeek_keepsInv (h : Invariant s) (hr : s.st.InRows s.params) : EndsIn Invariant (stepRowSeek s) :=
  srcSeek_keepsInv h fun hs => endsIn_next.2 (hs.goto { hr with })

/-- The row that follows is below ST.loadH (R179). -/
theorem nextRow_keepsInv (h : s.Sound) (hr : s.st.InRows s.params) : EndsIn Invariant (nextRow s) :=
  endsIn_nextRow
    (fun hlt => (h.withSt { s.st with row := s.st.row + 1 } rfl).goto { hr with row := by exact_mod_cast hlt })
    (h.endDecode nofun hr.op)

theorem stepRowRead_keepsInv (h : Invariant s) (hr : s.st.InRows s.params) : EndsIn Invariant (stepRowRead s) :=
  srcRead_keepsInv h fun b _ hs => endsIn_ite (fun _ => endsIn_next.2 (hs.endDecode nofun hr.op)) fun _ =>
    endsIn_writeRowBuf fun hb => by
      have hcol := (hs.writeRow hb).withSt { s.st with col := 0 } rfl
      exact endsIn_ite (fun _ => nextRow_keepsInv hcol { hr with }) fun hpos =>
        endsIn_next.2 (hcol.goto ⟨{ hr with }, Int.not_le.1 hpos⟩)

/-- The column that follows is below ST.loadW (R183). -/
theorem stepPixel_keepsInv (h : Invariant s) (hstep : s.st.step = .pixel) (hr : s.st.InRows s.params) :
    EndsIn Invariant (stepPixel s) :=
  endsIn_withRowBuf <| surfSet_keepsInv h fun hs =>
    endsIn_ite
      (fun hlt => endsIn_next.2 <| (hs.withSt { s.st with col := s.st.col + 1 } rfl).invariant fun _ => by
        simp only [Sequencer.Running, hstep]
        exact ⟨{ hr with }, by exact_mod_cast hlt⟩)
      fun _ => nextRow_keepsInv hs hr

theorem stepRelease_keepsInv (h : Invariant s) (ho : s.st.outcome ≠ .illegal)
    (hinspect : s.st.op = .inspect → inspectOutcome s.st.outcome) : EndsIn Invariant (stepRelease s) :=
  have hlog : (s.log .release).Sound := h.sound.of_same rfl rfl rfl rfl h.surface
  endsIn_next.2 (hlog.goto (q := .complete) ⟨ho, hinspect⟩)

@[simp] theorem State.completedRegs_status (s : State) :
    s.completedRegs.status = Status.completed s.st.outcome := by
  unfold State.completedRegs
  split <;> rfl

theorem Invariant.completeCommand (h : Invariant s) : Invariant s.completeCommand where
  params := h.params
  status := .inr (.inr ⟨_, s.completedRegs_status⟩)
  busy := by simp [Status.completed]
  running := by simp
  rowBuf := h.rowBuf
  rowBufBound := h.rowBufBound
  surface := h.surface

theorem runningStep_keepsInv (h : Invariant s) (hop : s.st.op ≠ .none) : EndsIn Invariant (runningStep s) := by
  have hrun := h.running hop
  unfold Sequencer.Running at hrun
  unfold runningStep
  cases hstep : s.st.step with simp only [hstep] at hrun ⊢
  | seekFH => exact stepSeekFH_keepsInv h
  | readFH => exact stepReadFH_keepsInv h
  | readIH => exact stepReadIH_keepsInv h hop
  | seekPal => exact stepSeekPal_keepsInv h hrun.1 hrun.2
  | readPal => exact stepReadPal_keepsInv h hrun.1
  | rowSeek => exact stepRowSeek_keepsInv h hrun
  | rowRead => exact stepRowRead_keepsInv h hrun
  | pixel => exact stepPixel_keepsInv h hstep hrun.1
  | release => exact stepRelease_keepsInv h hrun.1 hrun.2
  | complete => exact endsIn_next.2 h.completeCommand

theorem blockStep_keepsInv (h : Invariant s) : EndsIn Invariant (blockStep s) := by
  by_cases hop : s.st.op = .none
  · rw [blockStep_idle hop]
    exact endsIn_next.2 h
  · rw [blockStep_running hop]
    exact runningStep_keepsInv h hop

end Running

/-! ## The host and the reset input -/

section HostTurn

variable {s : State}

/-- A command that completes in the step of its CMD write (R93, R138): the block stays idle. -/
theorem Invariant.completedAtOnce (h : Invariant s) (hidle : s.regs.status.busy = false) {r : Regs} {o : CmdOutcome}
    (hr : r.status = Status.completed o) : Invariant { s with regs := r } :=
  { h with
    status := .inr (.inr ⟨o, hr⟩)
    busy := by simp [hr, Status.completed, h.sound.op_none hidle] }

/-- The issue of a command whose latches are `st` (R160). -/
theorem Invariant.issued (h : Invariant s) {r : Regs} {st : Sequencer} (hr : r.status = Status.running)
    (hop : st.op ≠ .none) (hstep : st.step = .seekFH) : Invariant { s with regs := r, st := st } :=
  { h with
    status := .inl hr
    busy := by simp [hr, Status.running, hop]
    running := fun _ => by simp [Sequencer.Running, hstep] }

theorem exec_keepsInv (h : Invariant s) (i : Instr) : EndsIn Invariant (exec i s) := by
  cases i with
  | decode => exact endsIn_accept (fun _ => h) fun _ => h.issued rfl nofun rfl
  | inspect => exact endsIn_accept (fun _ => h) fun _ => h.issued rfl nofun rfl
  | pack | unpack | blend | darken | lighten =>
    exact endsIn_accept (fun _ => h) fun hidle => h.completedAtOnce (o := .ok) hidle rfl

theorem writeCmd_keepsInv (h : Invariant s) (w : Word) : EndsIn Invariant (writeCmd s w) := by
  unfold writeCmd
  split
  · exact exec_keepsInv h _
  · exact endsIn_accept (fun _ => h) fun hidle => h.completedAtOnce (o := .illegal) hidle rfl

@[simp] theorem Regs.store_status (r : Regs) (v : Word) (g : HostReg) : (r.store v g).status = r.status := by
  cases g <;> rfl

theorem Invariant.storeReg (h : Invariant s) (g : HostReg) (v : Word) : Invariant (s.storeReg g v) := by
  unfold State.storeReg
  split
  · exact h
  · exact h.of_same rfl (Regs.store_status ..) rfl rfl h.surface

theorem writeOffset_keepsInv (h : Invariant s) (off : BitVec 8) (v : Word) :
    EndsIn Invariant (writeOffset s off v) := by
  unfold writeOffset
  split
  · exact writeCmd_keepsInv h v
  · exact endsIn_next.2 (h.storeReg _ v)
  · exact endsIn_next.2 h

theorem hostAct_keepsInv (h : Invariant s) (a : HostAction) (rest : List HostAction) :
    EndsIn Invariant (hostAct s a rest) := by
  have hrest : Invariant { s with prog := rest } := h.of_same rfl rfl rfl rfl h.surface
  cases a with
  | read size off =>
    exact endsIn_ite (fun _ => endsIn_next.2 (hrest.of_same rfl rfl rfl rfl h.surface)) fun _ => endsIn_refused _
  | write size off v => exact endsIn_ite (fun _ => writeOffset_keepsInv hrest off v) fun _ => endsIn_refused _
  | wait =>
    exact endsIn_ite (fun _ => endsIn_next.2 (h.of_same rfl rfl rfl rfl h.surface)) fun _ =>
      endsIn_next.2 (h.of_same rfl rfl rfl rfl h.surface)
  | bindSource src => exact endsIn_next.2 (h.of_same rfl rfl rfl rfl h.surface)
  | bindSurface content plan => exact endsIn_next.2 (h.of_same rfl rfl rfl rfl (surfaceWf_of content))

theorem hostStep_keepsInv (h : Invariant s) : EndsIn Invariant (hostStep s) := by
  unfold hostStep
  split
  · exact endsIn_next.2 h
  · exact hostAct_keepsInv h _ _

/-- Reset leaves the parameters and the surface, and the block idle (R260). -/
theorem Invariant.resetBlock (h : Invariant s) : Invariant s.resetBlock where
  params := h.params
  status := .inr (.inl rfl)
  busy := by simp [Regs.reset, Status.reset, Sequencer.reset]
  running := by simp [Sequencer.reset]
  rowBuf := Memory.wf_nil
  rowBufBound := by simp
  surface := h.surface

theorem step_keepsInv (h : Invariant s) : EndsIn Invariant (step s) := by
  have htick : Invariant s.tick := h.of_same rfl rfl rfl rfl h.surface
  unfold step
  split
  · exact hostStep_keepsInv htick
  · exact blockStep_keepsInv htick
  · exact endsIn_next.2 htick.resetBlock

end HostTurn

end Sys2Proof.Machine

/-- Settles O4: by the agent whose turn it is, and for the block by the event that comes next; the latches that event
needs are those its predecessor leaves. -/
theorem stepKeepsInv : Obligations.StepKeepsInv := fun _ t h => Sys2Proof.Machine.step_keepsInv h t

end

section
/-! Unspecified scratch never shows (R45, R263). Two states that differ only in dead scratch are followed through each
step together: one rule per shared operation, then one lemma per event of a running command. -/

namespace Sys2Proof.Machine

open Sys2Proof

/-! ## What is shown, and what is scratch -/

/-- `s` with PAL, ROWBUF and all of ST but ST.op at their reset values: what is left is what two states that differ
only in scratch share. -/
def State.shown (s : State) : State :=
  { s with st := { Sequencer.reset with op := s.st.op }, pal := Palette.reset, rowBuf := [] }

/-- What `State.shown` leaves out. -/
def State.scratch (s : State) : Sequencer × Palette × Memory := (s.st, s.pal, s.rowBuf)

/-- A state with this scratch. -/
def State.ofScratch (c : Sequencer × Palette × Memory) : State :=
  { State.reset with st := c.1, pal := c.2.1, rowBuf := c.2.2 }

section Shown

variable {s t s' t' : State}

theorem SameButScratch.shown (h : SameButScratch s t) : s.shown = t.shown := by
  simp [State.shown, h.params, h.regs, h.src, h.surf, h.trace, h.prog, h.reads, h.sched, h.ticks, h.op]

/-- What is computed from no scratch is the same in states that show the same. -/
theorem congr_shown {α : Type} (h : s.shown = t.shown) (f : State → α) : f s.shown = f t.shown := congrArg f h

/-- States that show the same agree, given what the running command still reads of its scratch. -/
theorem SameButScratch.of_shown (h : s.shown = t.shown) (hstep : s.st.op ≠ .none → s.st.step = t.st.step)
    (hlive : s.st.op ≠ .none → LiveScratchAgrees s t) : SameButScratch s t where
  params := congr_shown h State.params
  regs := congr_shown h State.regs
  src := congr_shown h State.src
  surf := congr_shown h State.surf
  trace := congr_shown h State.trace
  prog := congr_shown h State.prog
  reads := congr_shown h State.reads
  sched := congr_shown h State.sched
  ticks := congr_shown h State.ticks
  op := congr_shown h (·.st.op)
  step := hstep
  live := hlive

/-- The idle block reads no scratch. -/
theorem SameButScratch.of_idle (h : s.shown = t.shown) (hop : s.st.op = .none) : SameButScratch s t :=
  .of_shown h (absurd hop) (absurd hop)

theorem transferAgree_iff_scratch :
    TransferAgree s t ↔ TransferAgree (.ofScratch s.scratch) (.ofScratch t.scratch) :=
  ⟨fun h => { h with }, fun h => { h with }⟩

theorem rowsAgree_iff_scratch : RowsAgree s t ↔ RowsAgree (.ofScratch s.scratch) (.ofScratch t.scratch) :=
  ⟨fun h => { h with }, fun h => { h with }⟩

/-- What is live depends on the scratch alone. -/
theorem liveScratchAgrees_iff_scratch :
    LiveScratchAgrees s t ↔ LiveScratchAgrees (.ofScratch s.scratch) (.ofScratch t.scratch) := by
  have hst : (State.ofScratch s.scratch).st = s.st := rfl
  unfold LiveScratchAgrees
  rw [hst]
  cases hstep : s.st.step with
  | seekFH | readFH | readIH | release | complete => exact Iff.rfl
  | seekPal | readPal => exact transferAgree_iff_scratch
  | rowSeek | rowRead => exact rowsAgree_iff_scratch
  | pixel => exact and_congr rowsAgree_iff_scratch Iff.rfl

/-- An update of both states that leaves the scratch as it is, and shows the same, keeps them alike. -/
theorem SameButScratch.of_scratch (h : SameButScratch s t) (hshown : s'.shown = t'.shown)
    (hs : s'.scratch = s.scratch) (ht : t'.scratch = t.scratch) : SameButScratch s' t' := by
  have hst : s'.st = s.st := congrArg Prod.fst hs
  have htt : t'.st = t.st := congrArg Prod.fst ht
  refine .of_shown hshown ?_ ?_ <;> rw [hst]
  · exact htt ▸ h.step
  · rw [liveScratchAgrees_iff_scratch, hs, ht, ← liveScratchAgrees_iff_scratch]
    exact h.live

end Shown

/-! ## The rules of the shared operations -/

section Rules

variable {s t : State}

theorem sameResult_next : SameResult (.next s) (.next t) ↔ SameButScratch s t := Iff.rfl

theorem sameResult_ite {c d : Prop} [Decidable c] [Decidable d] {a b a' b' : StepResult} (hcd : c ↔ d)
    (ha : c → SameResult a b) (hb : ¬c → SameResult a' b') :
    SameResult (if c then a else a') (if d then b else b') := by
  by_cases hc : c
  · rw [if_pos hc, if_pos (hcd.1 hc)]
    exact ha hc
  · rw [if_neg hc, if_neg (mt hcd.2 hc)]
    exact hb hc

/-- The next event of both is `q`, and they agree in what it reads. -/
theorem SameButScratch.goto_of_shown (h : s.shown = t.shown) {q : SeqStep}
    (hlive : LiveScratchAgrees (s.goto q) (t.goto q)) : SameButScratch (s.goto q) (t.goto q) :=
  .of_shown h (fun _ => rfl) fun _ => hlive

/-- Both commands end with an outcome other than OK: only the outcome is read from here on (R231). -/
theorem SameButScratch.endFailed (h : s.shown = t.shown) {o : CmdOutcome} (ho : o ≠ .ok) :
    SameButScratch (s.endCommand o) (t.endCommand o) :=
  .of_shown h (fun _ => rfl) fun _ => ⟨rfl, fun _ hok => absurd hok ho⟩

/-- Both are a DECODE, which reads only its outcome from here on (R231). -/
theorem SameButScratch.endDecode (h : s.shown = t.shown) {o : CmdOutcome} (hop : s.st.op = .decode) :
    SameButScratch (s.endCommand o) (t.endCommand o) :=
  .of_shown h (fun _ => rfl) fun _ => ⟨rfl, fun hinspect => by simp [hop] at hinspect⟩

theorem SameButScratch.requestFailed (h : SameButScratch s t) (e : Event) :
    SameButScratch (s.requestFailed e) (t.requestFailed e) :=
  .endFailed (s := s.useSrcDraw.log e) (t := t.useSrcDraw.log e) (congrArg (fun u => u.useSrcDraw.log e) h.shown) nofun

/-- Two SEEKs to one place do the same (R62, R66). -/
theorem srcSeek_same (h : SameButScratch s t) {o o' : Nat} (ho : o = o') {k k' : State → StepResult}
    (hdone : (s.seekDone o).shown = (t.seekDone o).shown → SameResult (k (s.seekDone o)) (k' (t.seekDone o))) :
    SameResult (srcSeek s o k) (srcSeek t o' k') := by
  subst ho
  have hdraw : s.srcDraw = t.srcDraw := congr_shown h.shown State.srcDraw
  have hdone := hdone (congrArg (·.seekDone o) h.shown)
  unfold srcSeek
  rw [← hdraw]
  cases s.srcDraw with
  | silent => exact h.of_scratch (congrArg State.useSrcDraw h.shown) rfl rfl
  | ioErr => exact h.requestFailed _
  | reference => exact hdone
  | bytes b => exact hdone

/-- Two READs of one length do the same (R63, R66). -/
theorem srcRead_same (h : SameButScratch s t) {n n' : Nat} (hn : n = n') {k k' : State → List Byte → StepResult}
    (hdone : ∀ b : List Byte, b.length ≤ n → (s.readDone n b).shown = (t.readDone n b).shown →
      SameResult (k (s.readDone n b) b) (k' (t.readDone n b) b)) :
    SameResult (srcRead s n k) (srcRead t n' k') := by
  subst hn
  have hdraw : s.srcDraw = t.srcDraw := congr_shown h.shown State.srcDraw
  have hanswered (b : List Byte) : SameResult (readAnswered s n b k) (readAnswered t n b k') :=
    sameResult_ite Iff.rfl (fun _ => rfl) fun hb => hdone b (Nat.not_lt.1 hb) (congrArg (·.readDone n b) h.shown)
  unfold srcRead
  rw [← hdraw, ← h.src]
  cases s.srcDraw with
  | silent => exact h.of_scratch (congrArg State.useSrcDraw h.shown) rfl rfl
  | ioErr => exact h.requestFailed _
  | reference => exact hanswered _
  | bytes b => exact hanswered b

/-- Two SurfSets of one pixel do the same (R68). -/
theorem surfSet_same (h : SameButScratch s t) {x x' y y' : Int} {c c' : Color16} (hx : x = x') (hy : y = y')
    (hc : c = c') {k k' : State → StepResult}
    (hdone : (s.pixelDone x y c).shown = (t.pixelDone x y c).shown →
      SameResult (k (s.pixelDone x y c)) (k' (t.pixelDone x y c))) :
    SameResult (surfSet s x y c k) (surfSet t x' y' c' k') := by
  subst hx hy hc
  have hdraw : s.surfDraw = t.surfDraw := congr_shown h.shown State.surfDraw
  unfold surfSet
  rw [← hdraw]
  cases s.surfDraw with
  | silent => exact h.of_scratch (congrArg State.useSurfDraw h.shown) rfl rfl
  | accepts => exact hdone (congrArg (·.pixelDone x y c) h.shown)

/-- A command acts alike on two idle blocks, and does nothing to two busy ones (R22a, R47). -/
theorem accept_same (h : SameButScratch s t) {k : State → State}
    (hidle : s.regs.status.busy = false → SameButScratch (k s) (k t)) :
    SameResult (.next (accept s k)) (.next (accept t k)) := by
  rw [sameResult_next]
  cases hb : s.regs.status.busy with
  | true => simpa [hb, h.regs ▸ hb] using h
  | false => simpa [hb, h.regs ▸ hb] using hidle hb

end Rules

/-! ## The steps of a running command -/

section Running

variable {s t : State}

theorem stepSeekFH_same (h : SameButScratch s t)
    (hlive : s.st.op = .decode → s.st.dx = t.st.dx ∧ s.st.dy = t.st.dy) :
    SameResult (stepSeekFH s) (stepSeekFH t) :=
  srcSeek_same h rfl fun hshown => .goto_of_shown hshown hlive

theorem stepReadFH_same (h : SameButScratch s t)
    (hlive : s.st.op = .decode → s.st.dx = t.st.dx ∧ s.st.dy = t.st.dy) :
    SameResult (stepReadFH s) (stepReadFH t) :=
  srcRead_same h rfl fun fh _ hshown =>
    sameResult_ite (by simp [h.params]) (fun _ => .endFailed hshown nofun) fun _ =>
      sameResult_ite Iff.rfl (fun _ => .endFailed hshown nofun) fun _ =>
        .goto_of_shown (s := (s.readDone fileHdrLen fh).latchFileHeader fh)
          (t := (t.readDone fileHdrLen fh).latchFileHeader fh) hshown ⟨hlive, rfl, rfl⟩

/-- Entering the row loop, through the state in which the clip region is latched (R178, R179). -/
theorem enterRows_eq (s : State) :
    enterRows s =
      if s.clipped.st.loadH ≤ 0 then .next (s.clipped.endCommand .ok) else .next (s.clipped.goto .rowSeek) := rfl

/-- The row loop reads of PAL what READ_PAL has built, and nothing of it in a 24-bit image. -/
theorem enterRows_same (hshown : s.shown = t.shown) (hop : s.st.op = .decode) (ht : TransferAgree s t)
    (hpalLen : s.st.bpp = 8 → s.st.palLen = t.st.palLen)
    (hpal : s.st.bpp = 8 → ∀ k : Fin 256, k.val < s.st.palLen → s.pal[k] = t.pal[k]) :
    SameResult (enterRows s) (enterRows t) := by
  have hregs : s.regs = t.regs := congr_shown hshown State.regs
  have hclipped : s.clipped.shown = t.clipped.shown := hshown
  have hw : s.clipped.st.loadW = t.clipped.st.loadW := by simp [State.clipped, hregs, ht.width]
  have hh : s.clipped.st.loadH = t.clipped.st.loadH := by simp [State.clipped, hregs, ht.height]
  rw [enterRows_eq, enterRows_eq]
  refine sameResult_ite (by rw [hh]) (fun _ => .endDecode hclipped hop) fun _ => .goto_of_shown hclipped ?_
  exact { ht with loadW := hw, loadH := hh, row := rfl, palLen := hpalLen, pal := hpal }

/-- The header latches decide alone how DECODE starts its transfer (R172 to R175). -/
theorem startTransfer_same (hshown : s.shown = t.shown) (hop : s.st.op = .decode)
    (hdx : s.st.dx = t.st.dx) (hdy : s.st.dy = t.st.dy) (hpix : s.st.pixOff = t.st.pixOff)
    (hw : s.st.width = t.st.width) (hh : s.st.height = t.st.height) (hbpp : s.st.bpp = t.st.bpp)
    (hused : s.st.clrUsed = t.st.clrUsed) : SameResult (startTransfer s) (startTransfer t) := by
  have hparams : s.params = t.params := congr_shown hshown State.params
  have hstride : s.latchStride.shown = t.latchStride.shown := hshown
  have ht : TransferAgree s.latchStride t.latchStride :=
    ⟨hdx, hdy, hpix, hw, hh, hbpp, hused, by simp [hw, hbpp]⟩
  unfold startTransfer
  refine sameResult_ite (by rw [hw, hh]) (fun _ => .endFailed hshown nofun) fun _ => ?_
  dsimp only
  refine sameResult_ite (by simp [hparams, hw, hbpp]) (fun _ => .endFailed hstride nofun) fun _ => ?_
  refine sameResult_ite (by simp [hbpp]) (fun _ => .goto_of_shown hstride { ht with }) fun h8 => ?_
  exact enterRows_same hstride hop ht (absurd · h8) (absurd · h8)

theorem stepReadIH_same (h : SameButScratch s t) (hnone : s.st.op ≠ .none)
    (hlive : s.st.op = .decode → s.st.dx = t.st.dx ∧ s.st.dy = t.st.dy) (hsize : s.st.fileSize = t.st.fileSize)
    (hpix : s.st.pixOff = t.st.pixOff) : SameResult (stepReadIH s) (stepReadIH t) := by
  refine srcRead_same h rfl fun ih _ hshown => ?_
  refine sameResult_ite Iff.rfl (fun _ => .endFailed hshown nofun) fun _ => ?_
  have hlatched : ((s.readDone infoHdrLen ih).latchInfoHeader ih).shown =
      ((t.readDone infoHdrLen ih).latchInfoHeader ih).shown := hshown
  have hused : le32 ih (clrUsedIndex s.params) = le32 ih (clrUsedIndex t.params) := by rw [h.params]
  dsimp only
  cases hv : validateFormat (le16 ih 14) (le32 ih 16) (le16 ih 12) with simp only [State.latchInfoHeader_st, hv]
  | some k => exact .endFailed hlatched nofun
  | none =>
    refine sameResult_ite (by simp [h.op]) (fun _ => ?_) fun hinspect => ?_
    · exact .of_shown hlatched (fun _ => rfl) fun _ => ⟨rfl, fun _ _ => ⟨rfl, rfl, rfl, hsize, hused⟩⟩
    · have hop : s.st.op = .decode := RunningOp.eq_decode hnone hinspect
      exact startTransfer_same hlatched hop (hlive hop).1 (hlive hop).2 hpix rfl rfl rfl hused

theorem stepSeekPal_same (h : SameButScratch s t) (ht : TransferAgree s t) :
    SameResult (stepSeekPal s) (stepSeekPal t) :=
  srcSeek_same h rfl fun hshown => .goto_of_shown hshown { ht with }

/-- An entry below the number of built ones does not depend on what PAL held before (R176). -/
theorem buildPalette_getElem_built (old : Palette) {n : Nat} (pb : List Byte) {k : Fin 256} (hk : k.val < n) :
    (buildPalette old n pb)[k] = paletteEntry pb k := by
  simp [buildPalette, hk]

theorem stepReadPal_same (h : SameButScratch s t) (hop : s.st.op = .decode) (ht : TransferAgree s t) :
    SameResult (stepReadPal s) (stepReadPal t) := by
  unfold stepReadPal
  rw [← ht.clrUsed]
  refine srcRead_same h rfl fun pb _ hshown => ?_
  refine sameResult_ite Iff.rfl (fun _ => .endFailed hshown nofun) fun _ => ?_
  refine enterRows_same hshown hop { ht with } (fun _ => rfl) fun _ k hk => ?_
  exact (buildPalette_getElem_built _ pb hk).trans (buildPalette_getElem_built _ pb hk).symm

theorem stepRowSeek_same (h : SameButScratch s t) (hr : RowsAgree s t) :
    SameResult (stepRowSeek s) (stepRowSeek t) :=
  srcSeek_same h (by rw [hr.pixOff, hr.height, hr.rowStride, hr.row]) fun hshown => .goto_of_shown hshown { hr with }

theorem nextRow_same (hshown : s.shown = t.shown) (hop : s.st.op = .decode) (hr : RowsAgree s t) :
    SameResult (nextRow s) (nextRow t) := by
  refine sameResult_ite (by rw [hr.row, hr.loadH]) (fun _ => ?_) fun _ => .endDecode hshown hop
  exact .goto_of_shown (s := { s with st := { s.st with row := s.st.row + 1 } })
    (t := { t with st := { t.st with row := t.st.row + 1 } }) hshown { hr with row := congrArg (· + 1) hr.row }

/-- The columns of the clip region lie in the row that ROW_READ has stored (R173, R178). -/
theorem Sequencer.InRows.columns_le {st : Sequencer} {p : Params} (hr : st.InRows p) :
    st.loadW * st.bpg ≤ st.rowStride := by
  have hwidth : st.loadW * st.bpg ≤ (st.width.toInt.toNat * st.bpg : Nat) := by
    rw [Nat.cast_mul, Int.toNat_of_nonneg hr.width]
    exact mul_le_mul_of_nonneg_right hr.loadW (by omega)
  have hpad : (st.width.toInt.toNat * st.bpg : Nat) ≤ st.rowStride := hr.rowStride ▸ le_roundUp4 _
  omega

/-- A whole row is in ROWBUF, and the next column is the first (R180). -/
def State.rowStored (s : State) (rb : List Byte) : State :=
  { s with rowBuf := s.rowBuf.writeBytes 0 rb, st := { s.st with col := 0 } }

/-- ROW_READ, through the state in which the row is stored (R180). -/
theorem stepRowRead_eq (s : State) :
    stepRowRead s = srcRead s s.st.rowStride fun u rb =>
      if rb.length < u.st.rowStride then raiseFormat u .truncatedRow
      else if u.params.rowBufMax < rb.length then .fault .rowBufBounds
      else if u.st.loadW ≤ 0 then nextRow (u.rowStored rb) else .next ((u.rowStored rb).goto .pixel) := rfl

theorem stepRowRead_same (h : SameButScratch s t) (hs : Invariant s) (ht : Invariant t) (hrows : s.st.InRows s.params)
    (hr : RowsAgree s t) : SameResult (stepRowRead s) (stepRowRead t) := by
  rw [stepRowRead_eq, stepRowRead_eq, ← hr.rowStride]
  refine srcRead_same h rfl fun rb _ hshown => ?_
  refine sameResult_ite (by simp [hr.rowStride]) (fun _ => .endFailed hshown nofun) fun hlen => ?_
  refine sameResult_ite (by simp [h.params]) (fun _ => rfl) fun _ => ?_
  refine sameResult_ite (by simp [hr.loadW]) (fun _ => nextRow_same hshown hrows.op { hr with }) fun _ => ?_
  refine .goto_of_shown (s := (s.readDone _ rb).rowStored rb) (t := (t.readDone _ rb).rowStored rb) hshown
    ⟨{ hr with }, rfl, fun i hi => ?_⟩
  have hin : i < rb.length := by
    have hcolumns := hrows.columns_le
    simp only [State.readDone_st] at hlen
    exact_mod_cast (hi.trans_le hcolumns).trans_le (Int.ofNat_le.2 (Nat.not_lt.1 hlen))
  simp [State.rowStored, Memory.read_writeBytes hs.rowBuf, Memory.read_writeBytes ht.rowBuf, hin]

/-- Two pixels with the same index have one colour, if they agree in the palette entries that were built (R181). -/
theorem indexedColor_same (hr : RowsAgree s t) (h8 : s.st.bpp = 8) (idx : Byte) :
    indexedColor s idx = indexedColor t idx := by
  unfold indexedColor
  rw [← hr.palLen h8]
  split
  · exact hr.pal h8 ⟨idx.toNat, idx.isLt⟩ ‹_›
  · rfl

theorem pixelColor_same (hrows : s.st.InRows s.params) (hcol : (s.st.col : Int) < s.st.loadW) (hr : RowsAgree s t)
    (hcolEq : s.st.col = t.st.col)
    (hbuf : ∀ i : Nat, (i : Int) < s.st.loadW * s.st.bpg → s.rowBuf.read i = t.rowBuf.read i) :
    s.pixelColor = t.pixelColor := by
  unfold State.pixelColor
  rw [← hr.bpp, ← hcolEq]
  obtain h8 | h24 := hrows.bpp
  · have hbpg : s.st.bpg = 1 := by simp [hrows.bpg, h8, bytesPerPixel]
    rw [if_pos h8, if_pos h8, hbuf _ (by rw [hbpg]; omega), indexedColor_same hr h8]
  · have hbpg : s.st.bpg = 3 := by simp [hrows.bpg, h24, bytesPerPixel]
    have hchannel (i : Nat) (hi : i < 3) : s.rowBuf.read (3 * s.st.col + i) = t.rowBuf.read (3 * s.st.col + i) :=
      hbuf _ (by rw [hbpg]; omega)
    have hblue := hchannel 0 (by decide)
    rw [Nat.add_zero] at hblue
    simp [h24, hchannel, hblue]

theorem stepPixel_same (h : SameButScratch s t) (hstep : s.st.step = .pixel) (hstep' : t.st.step = .pixel)
    (hrows : s.st.InRows s.params) (hcol : (s.st.col : Int) < s.st.loadW) (hr : RowsAgree s t)
    (hcolEq : s.st.col = t.st.col)
    (hbuf : ∀ i : Nat, (i : Int) < s.st.loadW * s.st.bpg → s.rowBuf.read i = t.rowBuf.read i) :
    SameResult (stepPixel s) (stepPixel t) := by
  have hbytes : s.pixelBytes = t.pixelBytes := by simp [State.pixelBytes, hr.bpp, hcolEq]
  refine sameResult_ite (by rw [hbytes, h.params]) (fun _ => rfl) fun _ => ?_
  refine surfSet_same h (by rw [hr.dx, hcolEq]) (by rw [hr.dy, hr.row])
    (pixelColor_same hrows hcol hr hcolEq hbuf) fun hshown => ?_
  refine sameResult_ite (by simp [hcolEq, hr.loadW]) (fun _ => ?_) fun _ => nextRow_same hshown hrows.op { hr with }
  refine .of_shown hshown (fun _ => hstep.trans hstep'.symm) fun _ => ?_
  simp only [LiveScratchAgrees, State.pixelDone_st, hstep]
  exact ⟨{ hr with }, congrArg (· + 1) hcolEq, hbuf⟩

/-- What RELEASE and completion read of the scratch (R170, R231). -/
def CompletionAgrees (s t : State) : Prop :=
  s.st.outcome = t.st.outcome ∧
  (s.st.op = .inspect → s.st.outcome = .ok →
    s.st.width = t.st.width ∧ s.st.height = t.st.height ∧ s.st.bpp = t.st.bpp ∧
    s.st.fileSize = t.st.fileSize ∧ s.st.clrUsed = t.st.clrUsed)

theorem stepRelease_same (h : SameButScratch s t) (hlive : CompletionAgrees s t) :
    SameResult (stepRelease s) (stepRelease t) :=
  .goto_of_shown (s := s.log .release) (t := t.log .release) (congrArg (·.log .release) h.shown) hlive

/-- Completion reads the outcome, and the latches of an INSPECT that ended OK (R170, R231). -/
theorem completedRegs_same (h : SameButScratch s t) (hlive : CompletionAgrees s t) :
    s.completedRegs = t.completedRegs := by
  obtain ⟨hout, hinfo⟩ := hlive
  unfold State.completedRegs
  rw [← h.op, ← hout, ← h.regs]
  dsimp only
  split
  · obtain ⟨hw, hh, hbpp, hsize, hused⟩ := hinfo (And.left ‹_›) (And.right ‹_›)
    simp [Regs.withInfo, hw, hh, hbpp, hsize, hused]
  · rfl

theorem SameButScratch.completeCommand (h : SameButScratch s t) (hregs : s.completedRegs = t.completedRegs) :
    SameButScratch s.completeCommand t.completeCommand := by
  refine .of_idle ?_ rfl
  unfold State.completeCommand
  rw [hregs]
  exact congrArg (fun u : State => { u with regs := t.completedRegs, st := { u.st with op := .none } }) h.shown

theorem runningStep_same (hs : Invariant s) (ht : Invariant t) (h : SameButScratch s t) (hop : s.st.op ≠ .none) :
    SameResult (runningStep s) (runningStep t) := by
  have hstep' := h.step hop
  have hrun := hs.running hop
  have hlive := h.live hop
  unfold Sequencer.Running at hrun
  unfold LiveScratchAgrees at hlive
  unfold runningStep
  rw [← hstep']
  cases hstep : s.st.step with simp only [hstep] at hrun hlive hstep' ⊢
  | seekFH => exact stepSeekFH_same h hlive
  | readFH => exact stepReadFH_same h hlive
  | readIH => exact stepReadIH_same h hop hlive.1 hlive.2.1 hlive.2.2
  | seekPal => exact stepSeekPal_same h hlive
  | readPal => exact stepReadPal_same h hrun.1.op hlive
  | rowSeek => exact stepRowSeek_same h hlive
  | rowRead => exact stepRowRead_same h hs ht hrun hlive
  | pixel => exact stepPixel_same h hstep hstep'.symm hrun.1 hrun.2 hlive.1 hlive.2.1 hlive.2.2
  | release => exact stepRelease_same h hlive
  | complete => exact h.completeCommand (completedRegs_same h hlive)

theorem blockStep_same (hs : Invariant s) (ht : Invariant t) (h : SameButScratch s t) :
    SameResult (blockStep s) (blockStep t) := by
  by_cases hop : s.st.op = .none
  · rw [blockStep_idle hop, blockStep_idle (h.op ▸ hop)]
    exact h
  · rw [blockStep_running hop, blockStep_running (h.op ▸ hop)]
    exact runningStep_same hs ht h hop

end Running

/-! ## The host and the reset input -/

section HostTurn

variable {s t : State}

/-- Both states have their registers written alike. -/
theorem SameButScratch.withRegs (h : SameButScratch s t) {r r' : Regs} (hr : r = r') :
    SameButScratch { s with regs := r } { t with regs := r' } :=
  hr ▸ h.of_scratch (congrArg (fun u : State => { u with regs := r }) h.shown) rfl rfl

/-- A codec command computes one result in both (R138). -/
theorem SameButScratch.codecResult (h : SameButScratch s t) {v v' : Word} (hv : v = v') :
    SameButScratch (s.codecResult v) (t.codecResult v') := h.withRegs (by rw [h.regs, hv])

theorem exec_same (h : SameButScratch s t) (i : Instr) : SameResult (exec i s) (exec i t) := by
  cases i with
  | decode =>
    refine accept_same h fun _ => .of_shown (congrArg (·.issue .decode) h.shown) (fun _ => rfl) fun _ _ => ?_
    exact ⟨congrArg Regs.destX h.regs, congrArg Regs.destY h.regs⟩
  | inspect =>
    exact accept_same h fun _ => .of_shown (congrArg (·.issue .inspect) h.shown) (fun _ => rfl) fun _ => nofun
  | pack | unpack | blend | darken | lighten => exact accept_same h fun _ => h.codecResult (by rw [h.regs])

theorem writeCmd_same (h : SameButScratch s t) (w : Word) : SameResult (writeCmd s w) (writeCmd t w) := by
  unfold writeCmd
  split
  · exact exec_same h _
  · exact accept_same h fun _ => h.withRegs (by rw [h.regs])

theorem SameButScratch.storeReg (h : SameButScratch s t) (g : HostReg) (v : Word) :
    SameButScratch (s.storeReg g v) (t.storeReg g v) := by
  unfold State.storeReg
  rw [h.regs]
  split
  · exact h
  · exact h.withRegs rfl

theorem writeOffset_same (h : SameButScratch s t) (off : BitVec 8) (v : Word) :
    SameResult (writeOffset s off v) (writeOffset t off v) := by
  unfold writeOffset
  split
  · exact writeCmd_same h v
  · exact h.storeReg _ v
  · exact h

theorem SameButScratch.recordRead (h : SameButScratch s t) (off : BitVec 8) (v : Word) :
    SameButScratch (s.recordRead off v) (t.recordRead off v) :=
  h.of_scratch (congrArg (·.recordRead off v) h.shown) rfl rfl

theorem hostRead_same (h : SameButScratch s t) (size : AccessSize) (off : BitVec 8) :
    SameResult (hostRead s size off) (hostRead t size off) := by
  unfold hostRead
  rw [← h.regs]
  exact sameResult_ite Iff.rfl (fun _ => h.recordRead _ _) fun _ => rfl

theorem SameButScratch.withProg (h : SameButScratch s t) (rest : List HostAction) :
    SameButScratch { s with prog := rest } { t with prog := rest } :=
  h.of_scratch (congrArg (fun u : State => { u with prog := rest }) h.shown) rfl rfl

theorem hostAct_same (h : SameButScratch s t) (a : HostAction) (rest : List HostAction) :
    SameResult (hostAct s a rest) (hostAct t a rest) := by
  have hrest := h.withProg rest
  cases a with
  | read size off => exact hostRead_same hrest size off
  | write size off v => exact sameResult_ite Iff.rfl (fun _ => writeOffset_same hrest off v) fun _ => rfl
  | wait =>
    unfold hostAct
    rw [← h.regs]
    exact sameResult_ite Iff.rfl (fun _ => h.recordRead _ _) fun _ => (h.recordRead _ _).withProg rest
  | bindSource src =>
    exact hrest.of_scratch (congrArg (fun u : State => { u with prog := rest, src := src }) h.shown) rfl rfl
  | bindSurface content plan =>
    exact hrest.of_scratch
      (congrArg (fun u : State => { u with prog := rest, surf := ⟨surfaceOf content, plan⟩ }) h.shown) rfl rfl

theorem hostStep_same (h : SameButScratch s t) : SameResult (hostStep s) (hostStep t) := by
  unfold hostStep
  rw [← h.prog]
  split
  · exact h
  · exact hostAct_same h _ _

/-- A step of two states that differ only in dead scratch, whoever moves (R275). -/
theorem step_same (hs : Invariant s) (ht : Invariant t) (h : SameButScratch s t) : SameResult (step s) (step t) := by
  have htick : SameButScratch s.tick t.tick := h.of_scratch (congrArg State.tick h.shown) rfl rfl
  have hturn : s.turn = t.turn := congr_shown h.shown State.turn
  cases hmover : s.turn with
  | host =>
    rw [step_host hmover, step_host (hturn ▸ hmover)]
    exact hostStep_same htick
  | block =>
    rw [step_block hmover, step_block (hturn ▸ hmover)]
    exact blockStep_same (hs.of_same rfl rfl rfl rfl hs.surface) (ht.of_same rfl rfl rfl rfl ht.surface) htick
  | reset =>
    rw [step_reset hmover, step_reset (hturn ▸ hmover)]
    exact .of_idle (congr_shown htick.shown State.resetBlock) rfl

end HostTurn

end Sys2Proof.Machine

/-- Settles O59: by the agent whose turn it is, and for the block by the event that comes next; that event reads only
scratch in which the two states agree, and leaves them in agreement for the next one. -/
theorem scratchNeverShows : Obligations.ScratchNeverShows := fun _ _ hs ht h =>
  ⟨Sys2Proof.Machine.step_same hs ht h, Sys2Proof.Machine.congr_shown h.shown Sys2Proof.Machine.State.observe⟩

end

section
/-! The host window: which register an offset names, what a write stores, and the host's turn at an aligned access
(R22, R47, R72). -/

namespace Sys2Proof.Machine

open Sys2Proof

/-! ## Offsets and registers -/

/-- The offset of a register (R22). -/
def HostReg.offset : HostReg → BitVec 8
  | .cmd => 0x00
  | .status => 0x04
  | .clipCtrl => 0x08
  | .destX => 0x0C
  | .destY => 0x10
  | .maxW => 0x14
  | .maxH => 0x18
  | .codecA => 0x1C
  | .codecB => 0x20
  | .codecF => 0x24
  | .codecRes => 0x28
  | .infoWidth => 0x2C
  | .infoHeight => 0x30
  | .infoBpp => 0x34
  | .infoFileSize => 0x38
  | .infoPalColors => 0x3C

@[simp] theorem HostReg.atOffset_offset (g : HostReg) : atOffset g.offset = some g := by
  cases g <;> rfl

theorem HostReg.offset_of_atOffset {off : BitVec 8} {g : HostReg} (h : atOffset off = some g) : g.offset = off := by
  obtain ⟨l, l', hmap, -⟩ := List.lookup_eq_some_iff.1 h
  have hmem : (off, g) ∈ regMap := by simp [hmap]
  have hrows : ∀ p ∈ regMap, p.2.offset = p.1 := by decide
  exact hrows _ hmem

theorem HostReg.offset_le (g : HostReg) : g.offset.toNat ≤ 0x3C := by
  cases g <;> decide

/-- "Every offset not listed (0x40 to 0xFC) is reserved" (R22). -/
theorem HostReg.atOffset_reserved {off : BitVec 8} (h : 0x40 ≤ off.toNat) : atOffset off = none := by
  cases hg : atOffset off with
  | none => rfl
  | some g =>
    have hle := g.offset_le
    rw [HostReg.offset_of_atOffset hg] at hle
    omega

/-- The read-write registers of 32 bits (R22, R29 to R33). -/
def HostReg.storesWord (g : HostReg) : Bool :=
  g ∈ [HostReg.destX, .destY, .maxW, .maxH, .codecA, .codecB, .codecF]

/-- The aligned offsets from 0x0C to 0x24 are the read-write registers of 32 bits. -/
theorem HostReg.exists_storesWord {off : BitVec 8} (h4 : off.toNat % 4 = 0) (hlo : 0x0C ≤ off.toNat)
    (hhi : off.toNat ≤ 0x24) : ∃ g : HostReg, g.offset = off ∧ g.storesWord = true := by
  obtain h | h | h | h | h | h | h : off.toNat = 0x0C ∨ off.toNat = 0x10 ∨ off.toNat = 0x14 ∨ off.toNat = 0x18 ∨
      off.toNat = 0x1C ∨ off.toNat = 0x20 ∨ off.toNat = 0x24 := by omega
  exacts [⟨.destX, BitVec.eq_of_toNat_eq h.symm, rfl⟩, ⟨.destY, BitVec.eq_of_toNat_eq h.symm, rfl⟩,
    ⟨.maxW, BitVec.eq_of_toNat_eq h.symm, rfl⟩, ⟨.maxH, BitVec.eq_of_toNat_eq h.symm, rfl⟩,
    ⟨.codecA, BitVec.eq_of_toNat_eq h.symm, rfl⟩, ⟨.codecB, BitVec.eq_of_toNat_eq h.symm, rfl⟩,
    ⟨.codecF, BitVec.eq_of_toNat_eq h.symm, rfl⟩]

/-! ## Reading and storing a register -/

section Store

variable (r : Regs) (v : Word)

@[simp] theorem Regs.readOffset_offset (g : HostReg) : r.readOffset g.offset = r.value g := by
  simp [Regs.readOffset]

theorem Regs.readOffset_reserved {off : BitVec 8} (h : 0x40 ≤ off.toNat) : r.readOffset off = 0 := by
  simp [Regs.readOffset, HostReg.atOffset_reserved h]

theorem Regs.value_store_same {g : HostReg} (h : g.storesWord = true) : (r.store v g).value g = v := by
  cases g with
  | destX | destY | maxW | maxH | codecA | codecB | codecF => rfl
  | cmd | status | clipCtrl | codecRes | infoWidth | infoHeight | infoBpp | infoFileSize | infoPalColors =>
    simp [HostReg.storesWord] at h

/-- Of CLIP_CTRL only bits 1:0 are stored (R28, R36). -/
theorem Regs.value_store_clipCtrl : (r.store v .clipCtrl).value .clipCtrl = v &&& 0x3 := by
  refine BitVec.eq_of_toNat_eq ?_
  have hmask : v.toNat &&& 3 = v.toNat % 4 := Nat.and_two_pow_sub_one_eq_mod _ 2
  simp only [Regs.store, Regs.value, BitVec.toNat_setWidth, BitVec.toNat_and, BitVec.reduceToNat, hmask]
  omega

theorem Regs.value_store_other {g g' : HostReg} (h : g' ≠ g) : (r.store v g).value g' = r.value g' := by
  cases g with
  | cmd | status | codecRes | infoWidth | infoHeight | infoBpp | infoFileSize | infoPalColors => rfl
  | clipCtrl | destX | destY | maxW | maxH | codecA | codecB | codecF =>
    cases g' <;> simp [Regs.store, Regs.value] at h ⊢

/-- STATUS, CODEC_RES and the INFO registers are read-only (R22, R36). -/
theorem Regs.store_readOnly {g : HostReg} (h : g = .status ∨ 0x28 ≤ g.offset.toNat) : r.store v g = r := by
  cases g with
  | cmd | status | codecRes | infoWidth | infoHeight | infoBpp | infoFileSize | infoPalColors => rfl
  | clipCtrl | destX | destY | maxW | maxH | codecA | codecB | codecF => simp [HostReg.offset] at h

theorem Regs.readOffset_store_other {g : HostReg} {off : BitVec 8} (h : off ≠ g.offset) :
    (r.store v g).readOffset off = r.readOffset off := by
  unfold Regs.readOffset
  cases hg : HostReg.atOffset off with
  | none => rfl
  | some g' => exact r.value_store_other v fun e => h (e ▸ (HostReg.offset_of_atOffset hg).symm)

end Store

/-! ## The host's turn at an aligned access -/

section Turn

variable {s : State} {rest : List HostAction} {off : BitVec 8} {v : Word}

theorem legalAccess_aligned (h4 : off.toNat % 4 = 0) : legalAccess .bits32 off = true := by
  simp [legalAccess, h4]

theorem step_hostWrite (hturn : s.turn = .host) (hprog : s.prog = .write .bits32 off v :: rest)
    (h4 : off.toNat % 4 = 0) : step s = writeOffset { s.tick with prog := rest } off v := by
  simp [hturn, hostStep, hprog, hostAct, hostWrite, legalAccess_aligned h4]

theorem step_hostRead (hturn : s.turn = .host) (hprog : s.prog = .read .bits32 off :: rest)
    (h4 : off.toNat % 4 = 0) :
    step s = .next { s.tick with prog := rest, reads := s.reads ++ [⟨off, s.regs.readOffset off⟩] } := by
  simp [hturn, hostStep, hprog, hostAct, hostRead, legalAccess_aligned h4, State.recordRead]

/-! ## Writes while BUSY = 1 -/

theorem exec_busy (i : Instr) (h : s.regs.status.busy = true) : exec i s = .next s := by
  cases i <;> exact congrArg Host.Outcome.next (accept_busy h _)

theorem writeCmd_busy (h : s.regs.status.busy = true) (w : Word) : writeCmd s w = .next s := by
  unfold writeCmd
  split
  · exact exec_busy _ h
  · exact congrArg Host.Outcome.next (accept_busy h _)

theorem State.storeReg_busy (h : s.regs.status.busy = true) (g : HostReg) (v : Word) : s.storeReg g v = s := by
  simp [State.storeReg, h]

theorem writeOffset_busy (h : s.regs.status.busy = true) (off : BitVec 8) (v : Word) :
    writeOffset s off v = .next s := by
  unfold writeOffset
  split
  · exact writeCmd_busy h v
  · rw [State.storeReg_busy h]
  · rfl

/-- A legal STATUS with BUSY = 1 is the one of a running command (R47, R160). -/
theorem Status.legal.eq_running {t : Status} (h : t.legal) (hbusy : t.busy = true) : t = Status.running := by
  obtain h | rfl | ⟨o, rfl⟩ := h
  · exact h
  · simp [Status.reset] at hbusy
  · simp [Status.completed] at hbusy

/-! ## Writes while BUSY = 0 -/

/-- The registers after an idle write to an offset other than CMD's; a reserved offset has none to store (R22). -/
def Regs.storeOffset (r : Regs) (off : BitVec 8) (v : Word) : Regs :=
  match HostReg.atOffset off with
  | some g => r.store v g
  | none => r

theorem Regs.storeOffset_offset (r : Regs) (g : HostReg) (v : Word) : r.storeOffset g.offset v = r.store v g := by
  simp [Regs.storeOffset]

theorem Regs.storeOffset_status (r : Regs) (off : BitVec 8) (v : Word) : (r.storeOffset off v).status = r.status := by
  unfold Regs.storeOffset
  split
  · exact r.store_status v _
  · rfl

theorem Regs.readOffset_storeOffset_other (r : Regs) {o off : BitVec 8} (h : o ≠ off) (v : Word) :
    (r.storeOffset off v).readOffset o = r.readOffset o := by
  unfold Regs.storeOffset
  split
  · exact r.readOffset_store_other v fun e => h (e.trans (HostReg.offset_of_atOffset ‹_›))
  · rfl

/-- A read-only register and a reserved offset keep what they hold (R22, R36). -/
theorem Regs.storeOffset_readOnly (r : Regs) {off : BitVec 8} (h : off = 0x04 ∨ 0x28 ≤ off.toNat) (v : Word) :
    r.storeOffset off v = r := by
  unfold Regs.storeOffset
  split
  · next g hg =>
    obtain rfl := HostReg.offset_of_atOffset hg
    refine r.store_readOnly v (h.imp_left fun h => ?_)
    rw [h] at hg
    exact (Option.some.inj hg).symm
  · rfl

theorem writeOffset_idle (h : s.regs.status.busy = false) (hoff : off ≠ 0x00) :
    writeOffset s off v = .next { s with regs := s.regs.storeOffset off v } := by
  unfold writeOffset Regs.storeOffset
  split
  · next hcmd => exact absurd (HostReg.offset_of_atOffset hcmd).symm hoff
  · next g _ hg => simp [hg, State.storeReg, h]
  · next hnone => simp [hnone]

end Turn

end Sys2Proof.Machine

open Sys2Proof Sys2Proof.Machine

/-- Settles O12: every meaning passes through `accept`, which turns a busy block's command away. -/
theorem commandWhileBusyHasNoEffect : Obligations.CommandWhileBusyHasNoEffect := fun i _ h => exec_busy i h

/-- Settles O13: the access is turned away at the register or at CMD, and the invariant fixes STATUS while busy. -/
theorem busyWritesAreIgnored : Obligations.BusyWritesAreIgnored := by
  unfold Obligations.BusyWritesAreIgnored
  intro s rest off hinv hturn hbusy h4
  refine ⟨fun v hprog => ?_, fun hprog => step_hostRead hturn hprog h4, ?_⟩
  · rw [step_hostWrite hturn hprog h4]
    exact writeOffset_busy (s := { s.tick with prog := rest }) hbusy off v
  · show s.regs.status.word = 1
    rw [hinv.status.eq_running hbusy]
    rfl

/-- Settles O14: by the laws of `Regs.storeOffset`. -/
theorem idleWriteStoresItsRegister : Obligations.IdleWriteStoresItsRegister := by
  unfold Obligations.IdleWriteStoresItsRegister
  intro s rest off v hturn hidle hprog h4 hoff
  refine ⟨s.regs.storeOffset off v, ?_, s.regs.storeOffset_status off v,
    fun o ho => s.regs.readOffset_storeOffset_other ho v, fun hclip => ?_, fun hlo hhi => ?_,
    fun hro => s.regs.storeOffset_readOnly hro v⟩
  · rw [step_hostWrite hturn hprog h4]
    exact writeOffset_idle hidle hoff
  · obtain rfl : HostReg.clipCtrl.offset = off := hclip.symm
    rw [Regs.storeOffset_offset, Regs.readOffset_offset, Regs.value_store_clipCtrl]
  · obtain ⟨g, rfl, hg⟩ := HostReg.exists_storesWord h4 hlo hhi
    rw [Regs.storeOffset_offset, Regs.readOffset_offset, Regs.value_store_same _ _ hg]

/-- Settles O15: a read only adds to the host's record; CMD and every reserved offset hold no register to show. -/
theorem readsHaveNoSideEffect : Obligations.ReadsHaveNoSideEffect := by
  unfold Obligations.ReadsHaveNoSideEffect
  intro s rest off hturn hprog h4
  refine ⟨_, step_hostRead hturn hprog h4, rfl, ?_⟩
  rintro (rfl | hreserved)
  · rfl
  · exact s.regs.readOffset_reserved hreserved

end

section
/-! What a step can do to the registers, said once, and which registers change by what (R34, R35, R43). -/

namespace Sys2Proof.Machine

open Sys2Proof

/-! ## The word of a command -/

/-- A word that decodes is the encoding of its command (R91, R95). -/
theorem eq_encode_of_decode {w : Word} {i : Instr} (h : decode w = .ok i) : w = encode i := by
  unfold decode at h
  split at h
  · next r hr =>
    have hrows : ∀ r ∈ opcodeTable, r.mask = BitVec.allOnes 32 ∧ r.pattern = encode r.instr := by decide
    obtain ⟨hmask, hpattern⟩ := hrows r (List.mem_of_find?_eq_some hr)
    have hmatch := List.find?_some hr
    simp only [OpcodeRow.matchesWord, hmask, BitVec.and_allOnes, beq_iff_eq] at hmatch
    rw [hmatch, hpattern, Except.ok.inj h]
  · split at h <;> exact nomatch h

/-! ## What a step does to the registers -/

/-- What a command does to the registers of an idle block: STATUS is written (R93, R160), and by a codec command, whose
words are 3 to 7, CODEC_RES too (R91, R138). -/
inductive CommandRegs (r : Regs) (w : Word) : Regs → Prop
  | status (t : Status) : CommandRegs r w { r with status := t }
  | codec (v : Word) (t : Status) (hlo : 3 ≤ w.toNat) (hhi : w.toNat ≤ 7) :
    CommandRegs r w { r with codecRes := v, status := t }

/-- What one step can do to the registers. -/
inductive StepRegs (s : State) : Regs → Prop
  | kept : StepRegs s s.regs
  | stored (g : HostReg) (v : Word) : StepRegs s (s.regs.store v g)
  | command (w : Word) (rest : List HostAction) {r : Regs} (hturn : s.turn = .host)
    (hidle : s.regs.status.busy = false) (hprog : s.prog = cmdWrite w :: rest) (hr : CommandRegs s.regs w r) :
    StepRegs s r
  | completed (hturn : s.turn = .block) (hop : s.st.op ≠ .none) (hstep : s.st.step = .complete) :
    StepRegs s s.completedRegs
  | reset (hturn : s.turn = .reset) : StepRegs s Regs.reset

variable {s : State}

theorem exec_commandRegs (hidle : s.regs.status.busy = false) (i : Instr) :
    EndsIn (fun t => CommandRegs s.regs (encode i) t.regs) (exec i s) := by
  have hnotBusy {p : Prop} (h : s.regs.status.busy = true) : p := by simp [hidle] at h
  cases i with
  | decode | inspect => exact endsIn_accept hnotBusy fun _ => .status _
  | pack | unpack | blend | darken | lighten =>
    exact endsIn_accept hnotBusy fun _ => .codec _ _ (by decide) (by decide)

theorem writeCmd_commandRegs (hidle : s.regs.status.busy = false) (w : Word) :
    EndsIn (fun t => CommandRegs s.regs w t.regs) (writeCmd s w) := by
  have hnotBusy {p : Prop} (h : s.regs.status.busy = true) : p := by simp [hidle] at h
  unfold writeCmd
  split
  · next i hi => exact eq_encode_of_decode hi ▸ exec_commandRegs hidle i
  · exact endsIn_accept hnotBusy fun _ => .status _

theorem writeOffset_stepRegs {size : AccessSize} {off : BitVec 8} {v : Word} {rest : List HostAction}
    (hturn : s.turn = .host) (hprog : s.prog = .write size off v :: rest) (hlegal : legalAccess size off = true) :
    EndsIn (fun t => StepRegs s t.regs) (writeOffset { s.tick with prog := rest } off v) := by
  cases hb : s.regs.status.busy with
  | true =>
    rw [writeOffset_busy (s := { s.tick with prog := rest }) hb]
    exact endsIn_next.2 .kept
  | false =>
    by_cases hoff : off = 0x00
    · subst hoff
      obtain rfl : size = .bits32 := by simpa [legalAccess] using hlegal
      exact fun t ht =>
        .command v rest hturn hb hprog (writeCmd_commandRegs (s := { s.tick with prog := rest }) hb v t ht)
    · rw [writeOffset_idle (s := { s.tick with prog := rest }) hb hoff, endsIn_next]
      unfold Regs.storeOffset
      split
      · exact .stored _ _
      · exact .kept

theorem hostStep_stepRegs (hturn : s.turn = .host) : EndsIn (fun t => StepRegs s t.regs) (hostStep s.tick) := by
  unfold hostStep
  split
  · exact endsIn_next.2 .kept
  · next a rest hprog =>
    cases a with
    | read size off => exact endsIn_ite (fun _ => endsIn_next.2 .kept) fun _ => endsIn_refused _
    | write size off v => exact endsIn_ite (writeOffset_stepRegs hturn hprog) fun _ => endsIn_refused _
    | wait => exact endsIn_ite (fun _ => endsIn_next.2 .kept) fun _ => endsIn_next.2 .kept
    | bindSource src => exact endsIn_next.2 .kept
    | bindSurface content plan => exact endsIn_next.2 .kept

theorem blockStep_stepRegs (hturn : s.turn = .block) : EndsIn (fun t => StepRegs s t.regs) (blockStep s.tick) := by
  by_cases hop : s.st.op = .none
  · rw [blockStep_idle (s := s.tick) hop]
    exact endsIn_next.2 .kept
  rw [blockStep_running (s := s.tick) hop]
  by_cases hstep : s.st.step = .complete
  · rw [runningStep_complete (s := s.tick) hstep]
    exact endsIn_next.2 (.completed hturn hop hstep)
  · intro t ht
    have hregs : t.regs = s.regs := congrArg SequencerFrame.regs (runningStep_keepsFrame (s := s.tick) hstep t ht)
    exact hregs ▸ .kept

/-- The registers after a step, whoever moves (R275). -/
theorem step_stepRegs {t : State} (h : step s = .next t) : StepRegs s t.regs := by
  suffices hends : EndsIn (fun t => StepRegs s t.regs) (step s) from hends t h
  cases hturn : s.turn with
  | host =>
    rw [step_host hturn]
    exact hostStep_stepRegs hturn
  | block =>
    rw [step_block hturn]
    exact blockStep_stepRegs hturn
  | reset =>
    rw [step_reset hturn]
    exact endsIn_next.2 (.reset hturn)

/-! ## The registers one by one -/

@[simp] theorem Regs.store_codecRes (r : Regs) (v : Word) (g : HostReg) : (r.store v g).codecRes = r.codecRes := by
  cases g <;> rfl

@[simp] theorem State.completedRegs_codecRes (s : State) : s.completedRegs.codecRes = s.regs.codecRes := by
  unfold State.completedRegs
  split <;> rfl

/-- The INFO registers (R35). -/
def HostReg.isInfo (g : HostReg) : Prop :=
  g ∈ [HostReg.infoWidth, .infoHeight, .infoBpp, .infoFileSize, .infoPalColors]

/-- An INFO register is read-only. -/
theorem Regs.value_store_info {g : HostReg} (hg : g.isInfo) (r : Regs) (v : Word) (g' : HostReg) :
    (r.store v g').value g = r.value g := by
  by_cases h : g = g'
  · subst h
    rw [r.store_readOnly v (.inr ?_)]
    revert g
    simp [HostReg.isInfo, HostReg.offset]
  · exact r.value_store_other v h

/-- The value of an INFO register is none of STATUS and CODEC_RES. -/
theorem Regs.value_info_congr {g : HostReg} (hg : g.isInfo) {r r' : Regs} (hw : r.infoWidth = r'.infoWidth)
    (hh : r.infoHeight = r'.infoHeight) (hbpp : r.infoBpp = r'.infoBpp) (hsize : r.infoFileSize = r'.infoFileSize)
    (hpal : r.infoPalColors = r'.infoPalColors) : r.value g = r'.value g := by
  simp only [HostReg.isInfo, List.mem_cons, List.not_mem_nil, or_false] at hg
  obtain rfl | rfl | rfl | rfl | rfl := hg
  exacts [hw, hh, hbpp, hsize, hpal]

theorem CommandRegs.value_info {g : HostReg} (hg : g.isInfo) {r r' : Regs} {w : Word} (h : CommandRegs r w r') :
    r'.value g = r.value g := by
  cases h with
  | status => exact Regs.value_info_congr hg rfl rfl rfl rfl rfl
  | codec => exact Regs.value_info_congr hg rfl rfl rfl rfl rfl

/-- A completion leaves the INFO registers but where an INSPECT ended OK (R170, R231). -/
theorem State.completedRegs_value_info {g : HostReg} (hg : g.isInfo)
    (h : ¬(s.st.op = .inspect ∧ s.st.outcome = .ok)) : s.completedRegs.value g = s.regs.value g := by
  unfold State.completedRegs
  rw [if_neg h]
  exact Regs.value_info_congr hg rfl rfl rfl rfl rfl

end Sys2Proof.Machine

open Sys2Proof Sys2Proof.Machine

/-- Settles O35: of all that a step can do to the registers only the completion of an INSPECT and a reset reach one of
the INFO registers. -/
theorem infoChangesOnlyAtInspectCompletion : Obligations.InfoChangesOnlyAtInspectCompletion := by
  unfold Obligations.InfoChangesOnlyAtInspectCompletion
  intro s t g h hg hne
  have hregs := step_stepRegs h
  generalize t.regs = r at hregs hne
  cases hregs with
  | kept => exact absurd rfl hne
  | stored g' v => exact absurd (Regs.value_store_info hg _ v g') hne
  | command w rest _ _ _ hr => exact absurd (hr.value_info hg) hne
  | completed hturn _ hstep =>
    by_cases hok : s.st.op = .inspect ∧ s.st.outcome = .ok
    · exact .inr ⟨hturn, hok.1, hstep, hok.2⟩
    · exact absurd (State.completedRegs_value_info hg hok) hne
  | reset hturn => exact .inl hturn

/-- Settles O36: of all that a step can do to the registers only a codec command and a reset reach CODEC_RES. -/
theorem codecResChangesOnlyByCodecCommands : Obligations.CodecResChangesOnlyByCodecCommands := by
  unfold Obligations.CodecResChangesOnlyByCodecCommands
  intro s t h hne
  have hregs := step_stepRegs h
  generalize t.regs = r at hregs hne
  cases hregs with
  | kept => exact absurd rfl hne
  | stored g v => exact absurd (s.regs.store_codecRes v g) hne
  | command w rest hturn hidle hprog hr =>
    cases hr with
    | status => exact absurd rfl hne
    | codec _ _ hlo hhi => exact .inr ⟨hturn, hidle, w, rest, hprog, hlo, hhi⟩
  | completed => exact absurd s.completedRegs_codecRes hne
  | reset hturn => exact .inl hturn

/-- Settles O37: of all that a step can do to the registers only a command, a completion and a reset reach STATUS. -/
theorem statusChangesOnlyAtIssueAndCompletion : Obligations.StatusChangesOnlyAtIssueAndCompletion := by
  unfold Obligations.StatusChangesOnlyAtIssueAndCompletion
  intro s t h hne
  have hregs := step_stepRegs h
  generalize t.regs = r at hregs hne
  cases hregs with
  | kept => exact absurd rfl hne
  | stored g v => exact absurd (s.regs.store_status v g) hne
  | command w rest hturn hidle hprog => exact .inr (.inl ⟨hturn, hidle, w, rest, hprog⟩)
  | completed hturn hop hstep => exact .inr (.inr ⟨hturn, hop, hstep⟩)
  | reset hturn => exact .inl hturn

end

section
/-! Reset, the STATUS words, the clip region and the row buffer. -/

namespace Sys2Proof.Machine

open Sys2Proof

/-! ## Reset -/

theorem Regs.value_reset (g : HostReg) : Regs.reset.value g = 0 := by
  cases g <;> rfl

theorem Regs.readOffset_reset (off : BitVec 8) : Regs.reset.readOffset off = 0 := by
  unfold Regs.readOffset
  split
  · exact Regs.value_reset _
  · rfl

/-- The free P_ROWBUF_MAX is in the range of R10. -/
theorem Params.wellFormed_default : Params.default.wellFormed := by
  have hspan := Config.rowBufSpan.isLt
  simp only [Params.wellFormed, Params.default, Config.rowBufMax]
  omega

theorem Invariant.reset : Invariant State.reset where
  params := Params.wellFormed_default
  status := .inr (.inl rfl)
  busy := by decide
  running := absurd rfl
  rowBuf := Memory.wf_nil
  rowBufBound := by simp [State.reset]
  surface := List.Pairwise.nil

/-! ## ROW_READ -/

variable {s : State}

/-- A READ that is answered within the contract goes on with the answer (R63). -/
theorem srcRead_answered {n : Nat} {b : List Byte} (h : s.AnswersRead n b) (k : State → List Byte → StepResult) :
    srcRead s n k = k (s.readDone n b) b := by
  obtain ⟨hlen, ⟨hdraw, rfl⟩ | hdraw⟩ := h
  · exact srcRead_reference hdraw n k
  · simp [srcRead, hdraw, readAnswered, Nat.not_lt.2 hlen]

/-- An answered ROW_READ that is too short (R180). -/
theorem stepRowRead_short {rb : List Byte} (h : s.AnswersRead s.st.rowStride rb) (hlen : rb.length < s.st.rowStride) :
    stepRowRead s = .next ((s.readDone s.st.rowStride rb).endCommand (.format .truncatedRow)) := by
  rw [stepRowRead_eq, srcRead_answered h]
  exact if_pos hlen

/-- ST after a whole row is stored: its pixels, or, where the clip region has no column, the next row or success
(R179, R180, R185). -/
def Sequencer.afterRowStored (st : Sequencer) : Sequencer :=
  if 0 < st.loadW then { st with step := .pixel }
  else if (st.row : Int) + 1 < st.loadH then { st with row := st.row + 1, step := .rowSeek }
  else { st with outcome := .ok, step := .release }

theorem nextRow_of_no_column (hcol : s.st.loadW ≤ 0) : nextRow s = .next { s with st := s.st.afterRowStored } := by
  rw [Sequencer.afterRowStored, if_neg (Int.not_lt.2 hcol)]
  obtain ⟨hlt, h⟩ | ⟨hle, h⟩ := nextRow_cases s
  · rw [h, if_pos hlt]
    rfl
  · rw [h, if_neg (Int.not_lt.2 hle)]
    rfl

/-- An answered ROW_READ of a whole row that fits P_ROWBUF_MAX (R180). -/
theorem stepRowRead_whole {rb : List Byte} (h : s.AnswersRead s.st.rowStride rb) (hlen : rb.length = s.st.rowStride)
    (hfits : s.st.rowStride ≤ s.params.rowBufMax) :
    stepRowRead s = .next
      { (s.readDone s.st.rowStride rb).rowStored rb with st := { s.st with col := 0 }.afterRowStored } := by
  rw [stepRowRead_eq, srcRead_answered h, if_neg (by simp [hlen]), if_neg (by simp [hlen, hfits])]
  by_cases hcol : s.st.loadW ≤ 0
  · exact (if_pos hcol).trans (nextRow_of_no_column (s := (s.readDone s.st.rowStride rb).rowStored rb) hcol)
  · rw [Sequencer.afterRowStored, if_pos (Int.not_le.1 hcol)]
    exact if_neg hcol

/-- The stored row is what ROWBUF reads as in its place, and nothing else of ROWBUF changes (R180). -/
theorem State.rowStored_read (h : s.rowBuf.wf) (rb : List Byte) (i : Nat) :
    (s.rowStored rb).rowBuf.read i = if i < rb.length then byteAt rb i else s.rowBuf.read i := by
  simp [State.rowStored, Memory.read_writeBytes h]

theorem some_byteAt {b : List Byte} {i : Nat} (h : i < b.length) : some (byteAt b i) = b[i]? := by
  simp [byteAt, h]

end Sys2Proof.Machine

open Sys2Proof Sys2Proof.Machine

/-- Settles O1: every register of the reset block is 0, and a reserved offset reads 0 whatever it is. -/
theorem resetRegistersReadZero : Obligations.ResetRegistersReadZero := ⟨Regs.readOffset_reset, rfl⟩

/-- Settles O3: the idle block's clauses hold of the reset values, and P_ROWBUF_MAX is free within R10's range. -/
theorem resetMeetsInv : Obligations.ResetMeetsInv := Invariant.reset

/-- Settles O19: thirteen closed words. -/
theorem statusWords : Obligations.StatusWords := by
  unfold Obligations.StatusWords
  decide

/-- Settles O47: by the state in which the clip region is latched, and the two ways on from it. -/
theorem clipRegion : Obligations.ClipRegion := by
  unfold Obligations.ClipRegion
  intro s
  refine ⟨s.clipped.st.loadW, s.clipped.st.loadH, rfl, rfl, clipLength_le .., clipLength_le .., fun hpos => ?_,
    fun hempty => ?_⟩ <;> rw [enterRows_eq]
  · exact if_neg (Int.not_le.2 hpos)
  · exact if_pos hempty

/-- Settles O49: by the truncation test, the law of reading what was written, and the row's three ways on. -/
theorem rowBufferHoldsTheRow : Obligations.RowBufferHoldsTheRow := by
  unfold Obligations.RowBufferHoldsTheRow
  intro s rb hinv hop hstep hans
  have hblock : blockStep s = stepRowRead s := by
    rw [blockStep_running hop]
    simp [runningStep, hstep]
  have hrows : s.st.InRows s.params := by
    have hrun := hinv.running hop
    rwa [Sequencer.Running, hstep] at hrun
  rw [hblock]
  refine ⟨stepRowRead_short hans, fun hlen => ?_⟩
  have hread (i : Nat) := State.rowStored_read (s := s.readDone s.st.rowStride rb) hinv.rowBuf rb i
  refine ⟨_, stepRowRead_whole hans hlen hrows.fits, rfl, rfl, rfl, rfl, fun i hi => ?_, fun i hi => ?_,
    fun hcol => ?_, fun hcol hrow => ?_, fun hcol hrow => ?_⟩
  · rw [hread, if_pos (hlen ▸ hi), some_byteAt (hlen ▸ hi)]
  · rw [hread, if_neg (by omega)]
    rfl
  · exact if_pos hcol
  · exact (if_neg (Int.not_lt.2 hcol)).trans (if_pos hrow)
  · exact (if_neg (Int.not_lt.2 hcol)).trans (if_neg (Int.not_lt.2 hrow))

end

section
/-! The two ports (20_memory.md): which step is which request, what a step can do to the trace, said once, and the
range of what it sends (R61 to R71). -/

namespace Sys2Proof.Machine

open Sys2Proof

/-! ## What issues no event -/

/-- The step ends in a state with the trace of `s`. -/
abbrev KeepsTrace (s : State) (r : StepResult) : Prop := EndsIn (fun t => t.trace = s.trace) r

section Silent

variable (s : State)

theorem enterRows_keepsTrace : KeepsTrace s (enterRows s) := endsIn_enterRows rfl fun _ => rfl

theorem nextRow_keepsTrace : KeepsTrace s (nextRow s) := endsIn_nextRow (fun _ => rfl) rfl

theorem startTransfer_keepsTrace : KeepsTrace s (startTransfer s) :=
  endsIn_ite (fun _ => endsIn_next.2 rfl) fun _ =>
    endsIn_ite (fun _ => endsIn_next.2 rfl) fun _ =>
      endsIn_ite (fun _ => endsIn_next.2 rfl) fun _ => enterRows_keepsTrace s.latchStride

theorem exec_keepsTrace (i : Instr) : KeepsTrace s (exec i s) := by
  cases i <;> exact endsIn_accept (fun _ => rfl) fun _ => rfl

theorem writeCmd_keepsTrace (w : Word) : KeepsTrace s (writeCmd s w) := by
  unfold writeCmd
  split
  · exact exec_keepsTrace s _
  · exact endsIn_accept (fun _ => rfl) fun _ => rfl

@[simp] theorem State.storeReg_trace (g : HostReg) (v : Word) : (s.storeReg g v).trace = s.trace := by
  unfold State.storeReg
  split <;> rfl

theorem writeOffset_keepsTrace (off : BitVec 8) (v : Word) : KeepsTrace s (writeOffset s off v) := by
  unfold writeOffset
  split
  · exact writeCmd_keepsTrace s v
  · exact endsIn_next.2 (s.storeReg_trace _ v)
  · exact endsIn_next.2 rfl

/-- No action of the host is an event of a port (R81). -/
theorem hostStep_keepsTrace : KeepsTrace s (hostStep s) := by
  unfold hostStep
  split
  · exact endsIn_next.2 rfl
  · next a rest _ =>
    cases a with
    | read size off => exact endsIn_ite (fun _ => endsIn_next.2 rfl) fun _ => endsIn_refused _
    | write size off v =>
      exact endsIn_ite (fun _ => writeOffset_keepsTrace { s with prog := rest } off v) fun _ => endsIn_refused _
    | wait => exact endsIn_ite (fun _ => endsIn_next.2 rfl) fun _ => endsIn_next.2 rfl
    | bindSource src => exact endsIn_next.2 rfl
    | bindSurface content plan => exact endsIn_next.2 rfl

end Silent

/-! ## The steps that are requests -/

/-- `r` is the request that `e` records when it is answered IOErr, and what follows its answer in the same step issues
no event. -/
inductive IsRequest (s : State) : Event → StepResult → Prop
  | seek (o : Nat) (k : State → StepResult) (hk : ∀ u, KeepsTrace u (k u)) :
    IsRequest s (.seek o .ioErr) (srcSeek s o k)
  | read (n : Nat) (k : State → List Byte → StepResult) (hk : ∀ u b, KeepsTrace u (k u b)) :
    IsRequest s (.read n .ioErr) (srcRead s n k)

section Requests

variable (s : State)

theorem stepSeekFH_isRequest : IsRequest s (.seek 0 .ioErr) (stepSeekFH s) :=
  .seek _ _ fun _ => endsIn_next.2 rfl

theorem stepReadFH_isRequest : IsRequest s (.read 14 .ioErr) (stepReadFH s) :=
  .read _ _ fun _ _ =>
    endsIn_ite (fun _ => endsIn_next.2 rfl) fun _ =>
      endsIn_ite (fun _ => endsIn_next.2 rfl) fun _ => endsIn_next.2 rfl

theorem stepReadIH_isRequest : IsRequest s (.read 40 .ioErr) (stepReadIH s) := by
  refine .read _ _ fun u ih => endsIn_ite (fun _ => endsIn_next.2 rfl) fun _ => ?_
  dsimp only
  split
  · exact endsIn_next.2 rfl
  · exact endsIn_ite (fun _ => endsIn_next.2 rfl) fun _ => startTransfer_keepsTrace (u.latchInfoHeader ih)

theorem stepSeekPal_isRequest : IsRequest s (.seek 54 .ioErr) (stepSeekPal s) :=
  .seek _ _ fun _ => endsIn_next.2 rfl

theorem stepReadPal_isRequest : IsRequest s (.read (4 * paletteCount s.st.clrUsed) .ioErr) (stepReadPal s) :=
  .read _ _ fun _ _ => endsIn_ite (fun _ => endsIn_next.2 rfl) fun _ => enterRows_keepsTrace _

theorem stepRowSeek_isRequest :
    IsRequest s (.seek (rowOffset s.st.pixOff s.st.height s.st.rowStride s.st.row) .ioErr) (stepRowSeek s) :=
  .seek _ _ fun _ => endsIn_next.2 rfl

theorem stepRowRead_isRequest : IsRequest s (.read s.st.rowStride .ioErr) (stepRowRead s) :=
  .read _ _ fun _ _ =>
    endsIn_ite (fun _ => endsIn_next.2 rfl) fun _ => endsIn_writeRowBuf fun _ =>
      endsIn_ite (fun _ => nextRow_keepsTrace _) fun _ => endsIn_next.2 rfl

variable {s} {e : Event} {r : StepResult}

theorem blockStep_isRequest (hop : s.st.op ≠ .none) (h : s.failedRequest = some e) : IsRequest s e (blockStep s) := by
  rw [blockStep_running hop]
  unfold State.failedRequest at h
  unfold runningStep
  cases hstep : s.st.step with
    simp only [hstep, Option.some.injEq, reduceCtorEq] at h ⊢
  | seekFH => exact h ▸ stepSeekFH_isRequest s
  | readFH => exact h ▸ stepReadFH_isRequest s
  | readIH => exact h ▸ stepReadIH_isRequest s
  | seekPal => exact h ▸ stepSeekPal_isRequest s
  | readPal => exact h ▸ stepReadPal_isRequest s
  | rowSeek => exact h ▸ stepRowSeek_isRequest s
  | rowRead => exact h ▸ stepRowRead_isRequest s

theorem IsRequest.of_ioErr (h : IsRequest s e r) (hdraw : s.srcDraw = .ioErr) : r = .next (s.requestFailed e) := by
  cases h with
  | seek o k => simp [srcSeek, hdraw]
  | read n k => simp [srcRead, hdraw]

theorem IsRequest.of_silent (h : IsRequest s e r) (hdraw : s.srcDraw = .silent) : r = .next s.useSrcDraw := by
  cases h with
  | seek o k => simp [srcSeek, hdraw]
  | read n k => simp [srcRead, hdraw]

theorem IsRequest.of_overlong {n : Nat} {b : List Byte} (h : IsRequest s (.read n .ioErr) r)
    (hdraw : s.srcDraw = .bytes b) (hlen : n < b.length) : r = .refused .overlongAnswer := by
  cases h with
  | read n k => simp [srcRead, hdraw, readAnswered, hlen]

/-- The event with IOErr for its answer, where it has one. -/
def Event.asIoErr : Event → Event
  | .seek o _ => .seek o .ioErr
  | .read n _ => .read n .ioErr
  | .release => .release
  | .surfSet x y c => .surfSet x y c

/-- A request adds its own event, whatever the answer, or none while it waits (R61). -/
theorem IsRequest.trace (h : IsRequest s e r) :
    EndsIn (fun t => t.trace = s.trace ∨ ∃ e', e'.asIoErr = e ∧ t.trace = s.trace ++ [e']) r := by
  cases h with
  | seek o k hk => exact endsIn_srcSeek (.inl rfl) (.inr ⟨_, rfl, rfl⟩) fun t ht => .inr ⟨_, rfl, hk _ t ht⟩
  | read n k hk =>
    exact endsIn_srcRead (.inl rfl) (.inr ⟨_, rfl, rfl⟩) fun b _ t ht => .inr ⟨_, rfl, hk _ b t ht⟩

end Requests

/-! ## What a step does to the trace -/

/-- What one step can do to the trace (R77, R81): nothing, or, in the turn of the block and by its running command, one
event added at the end. -/
inductive StepTrace (s : State) : List Event → Prop
  | kept : StepTrace s s.trace
  | request {e : Event} (hturn : s.turn = .block) (hop : s.st.op ≠ .none) (he : s.failedRequest = some e.asIoErr) :
    StepTrace s (s.trace ++ [e])
  | pixel (hturn : s.turn = .block) (hop : s.st.op ≠ .none) (hstep : s.st.step = .pixel) :
    StepTrace s (s.trace ++ [.surfSet (s.st.dx.toInt + s.st.col) (s.st.dy.toInt + s.st.row) s.pixelColor])
  | release (hturn : s.turn = .block) (hop : s.st.op ≠ .none) (hstep : s.st.step = .release) :
    StepTrace s (s.trace ++ [.release])

variable {s : State}

/-- A running command sends a request, or is at a pixel, at RELEASE or at its completion (R37). -/
theorem State.failedRequest_cases (s : State) :
    (∃ e, s.failedRequest = some e) ∨ s.st.step = .pixel ∨ s.st.step = .release ∨ s.st.step = .complete := by
  unfold State.failedRequest
  cases s.st.step <;> simp

theorem stepPixel_trace :
    EndsIn (fun t => t.trace = s.trace ∨
      t.trace = s.trace ++ [.surfSet (s.st.dx.toInt + s.st.col) (s.st.dy.toInt + s.st.row) s.pixelColor])
      (stepPixel s) :=
  endsIn_withRowBuf <| endsIn_surfSet (.inl rfl) <|
    endsIn_ite (fun _ => endsIn_next.2 (.inr rfl)) fun _ t ht => .inr (nextRow_keepsTrace _ t ht)

theorem runningStep_pixel (h : s.st.step = .pixel) : runningStep s = stepPixel s := by
  simp [runningStep, h]

theorem runningStep_release (h : s.st.step = .release) :
    runningStep s = .next ((s.log .release).goto .complete) := by
  simp [runningStep, h, stepRelease, srcRelease]

theorem blockStep_stepTrace (hturn : s.turn = .block) : EndsIn (fun t => StepTrace s t.trace) (blockStep s.tick) := by
  by_cases hop : s.st.op = .none
  · rw [blockStep_idle (s := s.tick) hop]
    exact endsIn_next.2 .kept
  obtain ⟨e, he⟩ | hstep | hstep | hstep := s.failedRequest_cases
  · intro t ht
    obtain h | ⟨e', rfl, h⟩ := (blockStep_isRequest (s := s.tick) hop he).trace t ht
    · exact h ▸ .kept
    · exact h ▸ .request hturn hop he
  · rw [blockStep_running (s := s.tick) hop, runningStep_pixel (s := s.tick) hstep]
    intro t ht
    obtain h | h := stepPixel_trace t ht
    · exact h ▸ .kept
    · exact h ▸ .pixel hturn hop hstep
  · rw [blockStep_running (s := s.tick) hop, runningStep_release (s := s.tick) hstep]
    exact endsIn_next.2 (.release hturn hop hstep)
  · rw [blockStep_running (s := s.tick) hop, runningStep_complete (s := s.tick) hstep]
    exact endsIn_next.2 .kept

/-- The trace after a step, whoever moves (R275). -/
theorem step_stepTrace {t : State} (h : step s = .next t) : StepTrace s t.trace := by
  cases hturn : s.turn with
  | host =>
    rw [step_host hturn] at h
    exact hostStep_keepsTrace s.tick t h ▸ .kept
  | block =>
    rw [step_block hturn] at h
    exact blockStep_stepTrace hturn t h
  | reset =>
    rw [step_reset hturn] at h
    cases h
    exact .kept

/-! ## What fits the ports -/

/-- The bounds speak of what is sent, not of the answer. -/
@[simp] theorem Event.asIoErr_fits (e : Event) : e.asIoErr.fits ↔ e.fits := by
  cases e <;> rfl

theorem paletteCount_lt (clrUsed : Word) : paletteCount clrUsed < 2 ^ 32 := by
  unfold paletteCount
  split
  · exact clrUsed.isLt
  · decide

/-- Below ROWBUF's limit of 2^32 bytes a stored row starts below 2^64 (R64). -/
theorem rowOffset_lt {stride : Nat} (pixOff height : Word) (row : Nat) (h : stride ≤ 2 ^ 32) :
    rowOffset pixOff height stride row < 2 ^ 64 := by
  have hrow : storedRow height row ≤ 2 ^ 31 := by
    have := height.toInt_lt
    unfold storedRow
    omega
  have hmul : storedRow height row * stride ≤ 2 ^ 31 * 2 ^ 32 :=
    calc storedRow height row * stride ≤ 2 ^ 31 * stride := mul_le_mul_of_nonneg_right hrow (by omega)
      _ ≤ 2 ^ 31 * 2 ^ 32 := by omega
  have hpix := pixOff.isLt
  unfold rowOffset
  omega

/-- A coordinate of a placed image (R71). -/
theorem coordinate_fits (d image : Word) {i : Nat} {len : Int} (hi : (i : Int) < len) (hlen : len ≤ image.toInt) :
    -2 ^ 31 ≤ d.toInt + i ∧ d.toInt + i ≤ 2 ^ 32 - 3 := by
  have hlo := d.le_toInt
  have hhi := d.toInt_lt
  have himage := image.toInt_lt
  omega

theorem Sequencer.Transferring.rowStride_le {st : Sequencer} {p : Params} (h : st.Transferring p)
    (hp : p.wellFormed) : st.rowStride ≤ 2 ^ 32 := h.fits.trans hp.2

theorem failedRequest_fits (hinv : Invariant s) (hop : s.st.op ≠ .none) {e : Event}
    (h : s.failedRequest = some e) : e.fits := by
  have hrun := hinv.running hop
  unfold Sequencer.Running at hrun
  unfold State.failedRequest at h
  cases hstep : s.st.step with
    simp only [hstep, Option.some.injEq, reduceCtorEq] at h hrun
  | seekFH | readFH | readIH | seekPal =>
    subst h
    simp [Event.fits]
  | readPal =>
    have := paletteCount_lt s.st.clrUsed
    subst h
    simp only [Event.fits]
    omega
  | rowSeek => exact h ▸ rowOffset_lt _ _ _ (hrun.rowStride_le hinv.params)
  | rowRead =>
    have := hrun.rowStride_le hinv.params
    subst h
    simp only [Event.fits]
    omega

theorem Invariant.pixel (h : Invariant s) (hop : s.st.op ≠ .none) (hstep : s.st.step = .pixel) :
    s.st.InRows s.params ∧ (s.st.col : Int) < s.st.loadW := by
  have hrun := h.running hop
  rwa [Sequencer.Running, hstep] at hrun

/-- A pixel takes `bpg` bytes of the row, from `bpg * col` on (R181, R182). -/
theorem Sequencer.Transferring.pixelBytes_eq (h : s.st.Transferring s.params) :
    s.pixelBytes = (s.st.bpg * s.st.col, s.st.bpg) := by
  obtain h8 | h24 := h.bpp
  · simp [State.pixelBytes, h.bpg, h8, bytesPerPixel]
  · simp [State.pixelBytes, h.bpg, h24, bytesPerPixel]

/-- The bytes of a pixel lie within ROWBUF (R174, R181, R182). -/
theorem Sequencer.InRows.pixelBytes_le (hrows : s.st.InRows s.params) (hcol : (s.st.col : Int) < s.st.loadW) :
    s.pixelBytes.1 + s.pixelBytes.2 ≤ s.params.rowBufMax := by
  have hcolumns : ((s.st.col : Int) + 1) * s.st.bpg ≤ s.st.rowStride :=
    (mul_le_mul_of_nonneg_right hcol (by omega)).trans hrows.columns_le
  rw [hrows.pixelBytes_eq]
  calc s.st.bpg * s.st.col + s.st.bpg = (s.st.col + 1) * s.st.bpg := by ring
    _ ≤ s.st.rowStride := by exact_mod_cast hcolumns
    _ ≤ s.params.rowBufMax := hrows.fits

/-- While the surface does not accept a pixel the block waits (R68, R245). -/
theorem stepPixel_silent (hrows : s.st.InRows s.params) (hcol : (s.st.col : Int) < s.st.loadW)
    (hdraw : s.surfDraw = .silent) : stepPixel s = .next s.useSurfDraw := by
  rw [stepPixel, withRowBuf_fits (hrows.pixelBytes_le hcol)]
  simp [surfSet, hdraw]

theorem legalAccess_eq_false {size : AccessSize} {off : BitVec 8} (h : size ≠ .bits32 ∨ off.toNat % 4 ≠ 0) :
    legalAccess size off = false := by
  simpa [legalAccess, imp_iff_not_or] using h

end Sys2Proof.Machine

open Sys2Proof Sys2Proof.Machine

/-- Settles O30: an event is a request, a pixel or RELEASE, and the latches that the invariant describes bound what each
of them sends. -/
theorem stepIssuesAtMostOneFittingEvent : Obligations.StepIssuesAtMostOneFittingEvent := by
  unfold Obligations.StepIssuesAtMostOneFittingEvent
  intro s t hinv h
  have htrace := step_stepTrace h
  generalize t.trace = l at htrace
  cases htrace with
  | kept => exact .inl rfl
  | request _ hop he => exact .inr ⟨_, rfl, (Event.asIoErr_fits _).1 (failedRequest_fits hinv hop he)⟩
  | pixel _ hop hstep =>
    obtain ⟨hrows, hcol⟩ := hinv.pixel hop hstep
    exact .inr ⟨_, rfl, coordinate_fits _ _ hcol hrows.loadW, coordinate_fits _ _ hrows.row hrows.loadH⟩
  | release => exact .inr ⟨_, rfl, trivial⟩

/-- Settles O38: each of the three events is the running command's, and the rows, where pixels are written, are
DECODE's. -/
theorem onlyRunningCommandsIssueEvents : Obligations.OnlyRunningCommandsIssueEvents := by
  unfold Obligations.OnlyRunningCommandsIssueEvents
  intro s t e hinv h he
  have htrace := step_stepTrace h
  generalize t.trace = l at htrace he
  cases htrace with
  | kept => simp at he
  | request hturn hop hreq =>
    obtain rfl : _ = e := by simpa using he
    refine ⟨hturn, hop, ?_⟩
    rintro ⟨x, y, c, rfl⟩
    exact nomatch blockStep_isRequest hop hreq
  | pixel hturn hop hstep => exact ⟨hturn, hop, fun _ => (hinv.pixel hop hstep).1.op⟩
  | release hturn hop hstep =>
    obtain rfl : _ = e := by simpa using he
    exact ⟨hturn, hop, nofun⟩

/-- Settles O16: the access is refused before it reaches the window. -/
theorem otherAccessesAreRefused : Obligations.OtherAccessesAreRefused := by
  unfold Obligations.OtherAccessesAreRefused
  intro s rest size off v hturn hother
  have hlegal := legalAccess_eq_false hother
  exact ⟨fun hprog => by simp [hturn, hostStep, hprog, hostAct, hostRead, hlegal],
    fun hprog => by simp [hturn, hostStep, hprog, hostAct, hostWrite, hlegal]⟩

/-- Settles O31: the block's step is the request, and an IOErr ends it before what follows. -/
theorem ioErrEndsTheCommand : Obligations.IoErrEndsTheCommand :=
  ⟨rfl, fun _ _ hop he hdraw => (blockStep_isRequest hop he).of_ioErr hdraw⟩

/-- Settles O32: the block's step is the request or the pixel write, and without an answer it only uses up the turn of
the agent asked. -/
theorem unansweredRequestsWait : Obligations.UnansweredRequestsWait := by
  unfold Obligations.UnansweredRequestsWait
  refine ⟨fun s e hop he hdraw => (blockStep_isRequest hop he).of_silent hdraw, fun s hinv hop hstep hdraw => ?_⟩
  obtain ⟨hrows, hcol⟩ := hinv.pixel hop hstep
  rw [blockStep_running hop, runningStep_pixel hstep, stepPixel_silent hrows hcol hdraw]

/-- Settles O33: the block's step is the READ, and its answer is measured before it is used. -/
theorem overlongAnswersAreRefused : Obligations.OverlongAnswersAreRefused :=
  fun _ _ _ hop he hdraw hlen => (blockStep_isRequest hop he).of_overlong hdraw hlen

end

section
/-! The command words: what `decode` answers on every word (R90 to R95), and the host's turn at a CMD write (R22a, R93)
and at a WAIT (R112). -/

namespace Sys2Proof

/-! ## Encoding and decoding -/

/-- OPC is the value of a command's word, its other bits being zero (R90). -/
theorem encode_toNat (i : Instr) : (encode i).toNat = i.opc.toNat := by
  cases i <;> rfl

theorem Instr.opc_bounds (i : Instr) : 1 ≤ i.opc.toNat ∧ i.opc.toNat ≤ 7 := by
  cases i <;> decide

theorem decode_encode (i : Instr) : decode (encode i) = .ok i := by
  cases i <;> decide

/-- A word decodes to a command exactly when it is the command's word (R91, R95). -/
theorem decode_eq_ok_iff {w : Word} {i : Instr} : decode w = .ok i ↔ w = encode i :=
  ⟨Machine.eq_encode_of_decode, fun h => h ▸ decode_encode i⟩

/-- Every OPC from 1 to 7 is some command's (R91). -/
theorem exists_encode {w : Word} (hlo : 1 ≤ w.toNat) (hhi : w.toNat ≤ 7) : ∃ i, w = encode i := by
  have hopc : ∀ n ≤ 7, 1 ≤ n → ∃ i ∈ Instr.all, n = i.opc.toNat := by decide
  obtain ⟨i, -, hi⟩ := hopc w.toNat hhi hlo
  exact ⟨i, BitVec.eq_of_toNat_eq (hi.trans (encode_toNat i).symm)⟩

theorem mbzField_eq_zero_iff (w : Word) : mbzField w = 0 ↔ w.toNat < 16 := by
  have hw := w.isLt
  have hfield : (mbzField w).toNat = w.toNat / 16 % 2 ^ 28 := by
    rw [mbzField, BitVec.extractLsb'_toNat, Nat.shiftRight_eq_div_pow]
  rw [← BitVec.toNat_inj, hfield, BitVec.ofNat_eq_ofNat, BitVec.toNat_zero]
  omega

theorem opcField_toNat (w : Word) : (opcField w).toNat = w.toNat % 16 := by
  simp [opcField]

/-- A legal command word is a value from 1 to 7 (R91, R92). -/
theorem wellFormedWord_iff (w : Word) : wellFormedWord w = true ↔ 1 ≤ w.toNat ∧ w.toNat ≤ 7 := by
  simp only [wellFormedWord, Bool.and_eq_true, beq_iff_eq, decide_eq_true_eq, mbzField_eq_zero_iff, opcField_toNat]
  omega

/-- A word with a reserved bit set is rejected as such whatever its OPC, and another one for its OPC (R92, R93). -/
theorem eq_of_decode_error {w : Word} {e : DecodeError} (h : decode w = .error e) :
    e = if w.toNat < 16 then .reservedOpcode else .reservedBitsSet := by
  unfold decode at h
  split at h
  · exact nomatch h
  · simp only [mbzField_eq_zero_iff] at h
    split at h
    · next hlt => exact (Except.error.inj h).symm.trans (if_pos hlt).symm
    · next hge => exact (Except.error.inj h).symm.trans (if_neg hge).symm

/-- The legal words are the values from 1 to 7 (R91, R93). -/
theorem exists_decode_ok_iff {w : Word} : (∃ i, decode w = .ok i) ↔ 1 ≤ w.toNat ∧ w.toNat ≤ 7 := by
  constructor
  · rintro ⟨i, hi⟩
    rw [Machine.eq_encode_of_decode hi, encode_toNat]
    exact i.opc_bounds
  · rintro ⟨hlo, hhi⟩
    obtain ⟨i, rfl⟩ := exists_encode hlo hhi
    exact ⟨i, decode_encode i⟩

theorem decode_illegal {w : Word} (h : ¬(1 ≤ w.toNat ∧ w.toNat ≤ 7)) :
    decode w = .error (if w.toNat < 16 then .reservedOpcode else .reservedBitsSet) := by
  cases hd : decode w with
  | ok i => exact absurd (exists_decode_ok_iff.1 ⟨i, hd⟩) h
  | error e => rw [eq_of_decode_error hd]

theorem decode_of_decodeTableWord {nbits w : Nat} {i : Instr} (h : decodeTableWord nbits w = some i) :
    decode (tableWord nbits w) = .ok i := by
  unfold decodeTableWord at h
  cases hd : decode (tableWord nbits w) with rw [hd] at h
  | ok j => exact congrArg _ (Option.some.inj h)
  | error e => exact nomatch h

end Sys2Proof

namespace Sys2Proof.Machine

open Sys2Proof

/-! ## The host's turn at a CMD write and at a WAIT -/

variable {s : State} {w : Word} {rest : List HostAction}

theorem step_cmdWrite (hturn : s.turn = .host) (hprog : s.prog = cmdWrite w :: rest) :
    step s = writeCmd { s.tick with prog := rest } w :=
  step_hostWrite hturn hprog rfl

theorem writeCmd_of_decode_ok {i : Instr} (h : decode w = .ok i) : writeCmd s w = exec i s := by
  simp [writeCmd, h]

theorem writeCmd_of_decode_error {e : DecodeError} (h : decode w = .error e) : writeCmd s w = illegalCommand s := by
  simp [writeCmd, h]

/-- An illegal command word writes STATUS of an idle block, and nothing else (R93). -/
theorem illegalCommand_idle (h : s.regs.status.busy = false) :
    illegalCommand s = .next { s with regs := { s.regs with status := Status.completed .illegal } } := by
  simp [illegalCommand, h]

/-- BUSY is bit 0 of STATUS (R23). -/
@[simp] theorem Status.word_getElem_zero (t : Status) : t.word[0] = t.busy := by
  have hlow : t.word.getLsbD 0 = (BitVec.ofBool t.busy).getLsbD 0 := by
    simp only [Status.word, BitVec.getLsbD_append, Nat.zero_lt_one, if_true]
  simpa using hlow

/-- A WAIT records a read of STATUS, and stays in the program while BUSY = 1 (R112). -/
theorem step_wait (hturn : s.turn = .host) (hprog : s.prog = .wait :: rest) :
    step s = .next { s.tick with
      prog := if s.regs.status.busy then .wait :: rest else rest
      reads := s.reads ++ [⟨statusOffset, s.regs.status.word⟩] } := by
  cases hb : s.regs.status.busy <;> simp [hturn, hostStep, hprog, hostAct, hb, State.recordRead, State.tick]

end Sys2Proof.Machine

open Sys2Proof Sys2Proof.Machine

/-- Settles O9: each command decodes from its word, and a row of the opcode map matches one word, its command's. -/
theorem decodeEncodeAgree : Obligations.DecodeEncodeAgree :=
  ⟨fun i => ⟨by cases i <;> rfl, decode_encode i⟩, fun _ _ => decode_eq_ok_iff.1⟩

/-- Settles O10: 1 to 7 are the encodings; of the other words, those from 16 on have a reserved bit set. -/
theorem illegalWordsAreRejected : Obligations.IllegalWordsAreRejected := by
  unfold Obligations.IllegalWordsAreRejected
  intro w
  refine ⟨exists_decode_ok_iff.trans (wellFormedWord_iff w).symm, ?_⟩
  by_cases hlegal : 1 ≤ w.toNat ∧ w.toNat ≤ 7
  · obtain ⟨i, hi⟩ := exists_decode_ok_iff.2 hlegal
    exact ⟨iff_of_false (by simp [hi]) (by omega), iff_of_false (by simp [hi]) (by omega)⟩
  · rw [decode_illegal hlegal]
    split
    · exact ⟨iff_of_false (by simp) (by omega), iff_of_true rfl (by omega)⟩
    · exact ⟨iff_of_true rfl (by omega), iff_of_false (by simp) (by omega)⟩

/-- Settles O11: the word decodes to no command, and `illegalCommand` of an idle block writes STATUS alone. -/
theorem illegalCommandOnlySetsStatus : Obligations.IllegalCommandOnlySetsStatus := by
  unfold Obligations.IllegalCommandOnlySetsStatus
  intro s w rest hturn hprog hidle hillegal
  refine ⟨?_, by decide⟩
  rw [step_cmdWrite hturn hprog, writeCmd_of_decode_error (decode_illegal (by omega))]
  exact illegalCommand_idle (s := { s.tick with prog := rest }) hidle

/-- Settles O7: the host's turn at a CMD write is `writeCmd`, and `withFetchWord` makes such a turn. -/
theorem stepRunsTheDecodedCommand : Obligations.StepRunsTheDecodedCommand := by
  unfold Obligations.StepRunsTheDecodedCommand
  refine ⟨fun s w rest i hturn hprog hd => ?_, fun s i w hd => ?_, fun _ => step_block, fun _ => step_reset⟩
  · rw [step_cmdWrite hturn hprog, writeCmd_of_decode_ok hd]
  · rw [step_cmdWrite (s := s.withFetchWord 32 w) rfl rfl, writeCmd_of_decode_ok (decode_of_decodeTableWord hd)]
    rfl

/-- Settles O8: seven words are encodings, and the other six are computed. -/
theorem commandWordsDecode : Obligations.CommandWordsDecode :=
  ⟨decode_encode .decode, decode_encode .inspect, decode_encode .pack, decode_encode .unpack, decode_encode .blend,
    decode_encode .darken, decode_encode .lighten, by decide, by decide, by decide, by decide, by decide, by decide⟩

/-- Settles O17: the WAIT records a read of STATUS, and bit 0 of that read is BUSY. -/
theorem waitPollsStatus : Obligations.WaitPollsStatus := by
  unfold Obligations.WaitPollsStatus
  intro s rest hturn hprog
  rw [step_wait hturn hprog]
  rfl

end

section
/-! READ_IH of a whole info header: which of its bytes are latched (R105, R167), and that what follows in the same step
does not look at the trace. -/

namespace Sys2Proof.Machine

open Sys2Proof

/-! ## Fields of a byte sequence -/

section Fields

variable {a b : List Byte} {o : Nat}

theorem byteAt_congr {i : Nat} (h : a[i]? = b[i]?) : byteAt a i = byteAt b i := by
  rw [byteAt, byteAt, h]

theorem le16_congr (h : ∀ i, o ≤ i → i < o + 2 → a[i]? = b[i]?) : le16 a o = le16 b o := by
  have hbyte (k : Nat) (hk : k < 2) : byteAt a (o + k) = byteAt b (o + k) :=
    byteAt_congr (h _ (by omega) (by omega))
  have hfirst : byteAt a o = byteAt b o := hbyte 0 (by omega)
  rw [le16, le16, hbyte 1 (by omega), hfirst]

theorem le32_congr (h : ∀ i, o ≤ i → i < o + 4 → a[i]? = b[i]?) : le32 a o = le32 b o := by
  have hbyte (k : Nat) (hk : k < 4) : byteAt a (o + k) = byteAt b (o + k) :=
    byteAt_congr (h _ (by omega) (by omega))
  have hfirst : byteAt a o = byteAt b o := hbyte 0 (by omega)
  rw [le32, le32, hbyte 3 (by omega), hbyte 2 (by omega), hbyte 1 (by omega), hfirst]

end Fields

/-! ## What follows the latches -/

/-- The info-header bytes that a part with these parameters latches (R105, R167). -/
def usedHeaderByte (p : Params) (i : Nat) : Prop :=
  (4 ≤ i ∧ i < 20) ∨ (clrUsedIndex p ≤ i ∧ i < clrUsedIndex p + 4)

variable {s : State} {a b : List Byte}

theorem latchInfoHeader_congr (h : ∀ i, usedHeaderByte s.params i → a[i]? = b[i]?) :
    s.latchInfoHeader a = s.latchInfoHeader b := by
  have hfixed (i : Nat) (hlo : 4 ≤ i) (hhi : i < 20) : a[i]? = b[i]? := h i (.inl ⟨hlo, hhi⟩)
  have hused : le32 a (clrUsedIndex s.params) = le32 b (clrUsedIndex s.params) :=
    le32_congr fun i hlo hhi => h i (.inr ⟨hlo, hhi⟩)
  have h32 (o : Nat) (hlo : 4 ≤ o) (hhi : o ≤ 16) : le32 a o = le32 b o :=
    le32_congr fun i _ _ => hfixed i (by omega) (by omega)
  have h16 (o : Nat) (hlo : 4 ≤ o) (hhi : o ≤ 18) : le16 a o = le16 b o :=
    le16_congr fun i _ _ => hfixed i (by omega) (by omega)
  simp only [State.latchInfoHeader, hused, h32 4 (by omega) (by omega), h32 8 (by omega) (by omega),
    h16 12 (by omega) (by omega), h16 14 (by omega) (by omega), h32 16 (by omega) (by omega)]

/-- READ_IH after its latches: the validation of R168, and what follows a header that passes it. -/
def validateHeader (s : State) : StepResult :=
  match validateFormat s.st.bpp s.st.comp s.st.planes with
  | some k => raiseFormat s k
  | none => if s.st.op = .inspect then finishOk s else startTransfer s

theorem stepReadIH_whole (h : s.AnswersRead infoHdrLen a) (hlen : a.length = infoHdrLen) :
    stepReadIH s = validateHeader ((s.readDone infoHdrLen a).latchInfoHeader a) := by
  rw [stepReadIH, srcRead_answered h]
  exact if_neg (Nat.not_lt.2 hlen.ge)

/-! ## Steps that do not look at the trace -/

/-- Two results are next states that differ in the trace alone, `l` being the second one's. -/
def SameButTrace (l : List Event) (r r' : StepResult) : Prop := ∃ t, r = .next t ∧ r' = .next { t with trace := l }

theorem sameButTrace_ite {l : List Event} {c : Prop} [Decidable c] {x y x' y' : StepResult}
    (hx : SameButTrace l x x') (hy : SameButTrace l y y') :
    SameButTrace l (if c then x else y) (if c then x' else y') := by
  split
  · exact hx
  · exact hy

variable (s) (l : List Event)

theorem enterRows_sameButTrace : SameButTrace l (enterRows s) (enterRows { s with trace := l }) :=
  sameButTrace_ite ⟨_, rfl, rfl⟩ ⟨_, rfl, rfl⟩

theorem startTransfer_sameButTrace : SameButTrace l (startTransfer s) (startTransfer { s with trace := l }) :=
  sameButTrace_ite ⟨_, rfl, rfl⟩ <| sameButTrace_ite ⟨_, rfl, rfl⟩ <|
    sameButTrace_ite ⟨_, rfl, rfl⟩ (enterRows_sameButTrace s.latchStride l)

theorem validateHeader_sameButTrace : SameButTrace l (validateHeader s) (validateHeader { s with trace := l }) := by
  unfold validateHeader
  cases validateFormat s.st.bpp s.st.comp s.st.planes with
  | some k => exact ⟨_, rfl, rfl⟩
  | none => exact sameButTrace_ite ⟨_, rfl, rfl⟩ (startTransfer_sameButTrace s l)

/-! ## The source's answer -/

/-- `s` with this answer as the next of its source's plan. -/
def State.answering (b : List Byte) (rest : List SrcDraw) : State :=
  { s with src := { s.src with plan := .bytes b :: rest } }

variable {s}

/-- Two whole headers that agree on the used bytes leave READ_IH at states that differ in the trace alone, which records
the answer (R81). -/
theorem latched_congr (hlen : a.length = b.length) (h : ∀ i, usedHeaderByte s.params i → a[i]? = b[i]?) (n : Nat)
    (rest : List SrcDraw) :
    ((s.answering b rest).readDone n b).latchInfoHeader b =
      { ((s.answering a rest).readDone n a).latchInfoHeader a with trace := s.trace ++ [.read n (.bytes b)] } := by
  rw [← latchInfoHeader_congr (s := (s.answering b rest).readDone n b) h]
  simp [State.latchInfoHeader, State.readDone, State.answering, hlen]

theorem blockStep_readIH_answering (hop : s.st.op ≠ .none) (hstep : s.st.step = .readIH)
    (hlen : a.length = infoHdrLen) (rest : List SrcDraw) :
    blockStep (s.answering a rest) =
      validateHeader (((s.answering a rest).readDone infoHdrLen a).latchInfoHeader a) := by
  have hrun : blockStep (s.answering a rest) = stepReadIH (s.answering a rest) := by
    rw [blockStep_running (s := s.answering a rest) hop]
    simp [runningStep, State.answering, hstep]
  rw [hrun, stepReadIH_whole ⟨hlen.le, .inr rfl⟩ hlen]

end Sys2Proof.Machine

open Sys2Proof Sys2Proof.Machine

/-- Settles O44: the latched states differ in the trace alone, at which the rest of the step does not look. -/
theorem ignoredHeaderBytesNeverMatter : Obligations.IgnoredHeaderBytesNeverMatter := by
  unfold Obligations.IgnoredHeaderBytesNeverMatter
  intro s a b hop hstep ha hb hused rest
  have hbytes : ∀ i, usedHeaderByte s.params i → a[i]? = b[i]? := by
    intro i hi
    refine hused i (hi.imp_right fun hfield => ?_)
    have hoff : 14 ≤ s.params.clrUsedOff.fileOffset := by cases s.params.clrUsedOff <;> decide
    simp only [clrUsedIndex, fileHdrLen] at hfield
    omega
  obtain ⟨t, ht, hu⟩ := validateHeader_sameButTrace
    (((s.answering a rest).readDone infoHdrLen a).latchInfoHeader a) (s.trace ++ [.read infoHdrLen (.bytes b)])
  rw [← latched_congr (ha.trans hb.symm) hbytes infoHdrLen rest] at hu
  exact ⟨t, _, (blockStep_readIH_answering hop hstep ha rest).trans ht,
    (blockStep_readIH_answering hop hstep hb rest).trans hu, rfl, rfl, rfl, rfl, rfl⟩

end

section
/-! The packed colour as a number (R100, R130 to R133), the channels that BLEND, DARKEN and LIGHTEN compute (R135 to
R137), and the completion of the codec commands (R138 to R143). -/

namespace Sys2Proof.Machine

open Sys2Proof

/-! ## Packing and unpacking -/

theorem exchangeBytes_toNat (n : BitVec 16) :
    (exchangeBytes n).toNat = n.toNat % 256 * 256 + n.toNat / 256 := by
  rw [exchangeBytes, toNat_append_eq_add, BitVec.extractLsb'_toNat, BitVec.extractLsb'_toNat, Nat.shiftRight_eq_div_pow,
    Nat.shiftRight_eq_div_pow]
  omega

@[simp] theorem exchangeBytes_exchangeBytes (n : BitVec 16) : exchangeBytes (exchangeBytes n) = n := by
  apply BitVec.eq_of_toNat_eq
  rw [exchangeBytes_toNat, exchangeBytes_toNat]
  omega

/-- The 5-6-5 value of three channels: the top bits of red from bit 11, of green from bit 5 and of blue from bit 0
(R100, R130). -/
theorem exchangeBytes_packColor_toNat (p : Rgb) :
    (exchangeBytes (packColor p)).toNat = p.r.toNat / 8 * 2048 + p.g.toNat / 4 * 32 + p.b.toNat / 8 := by
  simp only [packColor, exchangeBytes_exchangeBytes, toNat_append_eq_add, BitVec.extractLsb'_toNat,
    Nat.shiftRight_eq_div_pow]
  omega

/-- The channels of a packed colour: the fields of its 5-6-5 value, with their low bits zero (R131). -/
theorem unpackColor_toNat (c : Color16) :
    (unpackColor c).r.toNat = (exchangeBytes c).toNat / 2048 * 8 ∧
      (unpackColor c).g.toNat = (exchangeBytes c).toNat / 32 % 64 * 4 ∧
      (unpackColor c).b.toNat = (exchangeBytes c).toNat % 32 * 8 := by
  simp only [unpackColor, toNat_append_eq_add, BitVec.extractLsb'_toNat, Nat.shiftRight_eq_div_pow,
    BitVec.ofNat_eq_ofNat, BitVec.toNat_zero]
  omega

/-- The byte exchange is one to one, so the 5-6-5 value determines the packed colour. -/
theorem eq_of_exchangeBytes_toNat_eq {c d : Color16} (h : (exchangeBytes c).toNat = (exchangeBytes d).toNat) :
    c = d := by
  rw [← exchangeBytes_exchangeBytes c, BitVec.eq_of_toNat_eq h, exchangeBytes_exchangeBytes]

@[simp] theorem packColor_unpackColor (c : Color16) : packColor (unpackColor c) = c := by
  obtain ⟨hr, hg, hb⟩ := unpackColor_toNat c
  apply eq_of_exchangeBytes_toNat_eq
  rw [exchangeBytes_packColor_toNat, hr, hg, hb]
  omega

/-- What the round trip keeps of each channel (R132, R133). -/
theorem unpackColor_packColor_toNat (p : Rgb) :
    (unpackColor (packColor p)).r.toNat = p.r.toNat / 8 * 8 ∧
      (unpackColor (packColor p)).g.toNat = p.g.toNat / 4 * 4 ∧
      (unpackColor (packColor p)).b.toNat = p.b.toNat / 8 * 8 := by
  obtain ⟨hr, hg, hb⟩ := unpackColor_toNat (packColor p)
  rw [hr, hg, hb, exchangeBytes_packColor_toNat]
  omega

/-- What the round trip keeps of channels known as integers. -/
theorem unpackColor_packColor_of_channels {p : Rgb} {r g b : Int} (hr : (p.r.toNat : Int) = r)
    (hg : (p.g.toNat : Int) = g) (hb : (p.b.toNat : Int) = b) :
    ((unpackColor (packColor p)).r.toNat : Int) = r / 8 * 8 ∧
      ((unpackColor (packColor p)).g.toNat : Int) = g / 4 * 4 ∧
      ((unpackColor (packColor p)).b.toNat : Int) = b / 8 * 8 := by
  obtain ⟨hr', hg', hb'⟩ := unpackColor_packColor_toNat p
  omega

theorem and_0xF8_toNat : ∀ x : Byte, (x &&& 0xF8).toNat = x.toNat / 8 * 8 := by decide

theorem and_0xFC_toNat : ∀ x : Byte, (x &&& 0xFC).toNat = x.toNat / 4 * 4 := by decide

/-- Unpacking a packed triple masks its channels (R132). -/
theorem unpackColor_packColor (p : Rgb) :
    unpackColor (packColor p) = ⟨p.r &&& 0xF8, p.g &&& 0xFC, p.b &&& 0xF8⟩ := by
  obtain ⟨hr, hg, hb⟩ := unpackColor_packColor_toNat p
  rw [← and_0xF8_toNat] at hr hb
  rw [← and_0xFC_toNat] at hg
  exact (Rgb.mk.injEq ..).mpr ⟨BitVec.eq_of_toNat_eq hr, BitVec.eq_of_toNat_eq hg, BitVec.eq_of_toNat_eq hb⟩

/-- Channels whose kept bits are all set pack to white (R132). -/
theorem packColor_of_bright {p : Rgb} (hr : 248 ≤ p.r.toNat) (hg : 252 ≤ p.g.toNat) (hb : 248 ≤ p.b.toNat) :
    packColor p = 0xFFFF := by
  have hwhite : (exchangeBytes 0xFFFF).toNat = 0xFFFF := by decide
  apply eq_of_exchangeBytes_toNat_eq
  rw [exchangeBytes_packColor_toNat, hwhite]
  omega

/-! ## Computed channels -/

theorem toChannel_toNat {x : Int} (hlo : 0 ≤ x) (hhi : x ≤ 255) : ((toChannel x).toNat : Int) = x := by
  rw [toChannel, BitVec.toNat_ofInt]
  omega

@[simp] theorem toChannel_toNat_self (a : Byte) : toChannel a.toNat = a := by
  simp [toChannel]

theorem toChannel_clamp_toNat (x : Int) : ((toChannel (clamp x 0 255)).toNat : Int) = min (max x 0) 255 := by
  rw [toChannel_toNat] <;> simp only [clamp] <;> omega

theorem darkenChannel_toNat (f : Int) (a : Byte) :
    ((darkenChannel f a).toNat : Int) = min (max ((a.toNat * f).fdiv 65536) 0) 255 :=
  toChannel_clamp_toNat _

theorem lightenChannel_toNat (f : Int) (a : Byte) :
    ((lightenChannel f a).toNat : Int) = min (max ((a.toNat * 65536 + (255 - a.toNat) * f).fdiv 65536) 0) 255 :=
  toChannel_clamp_toNat _

/-- Between the endpoints an interpolated channel is a channel, so nothing is clamped (R135). -/
theorem blendChannel_toNat {f : Int} (hlo : 0 ≤ f) (hhi : f ≤ 65536) (a b : Byte) :
    ((blendChannel f a b).toNat : Int) = (a.toNat * f + b.toNat * (65536 - f)).fdiv 65536 := by
  have ha := a.isLt
  have hb := b.isLt
  have hleft : 0 ≤ a.toNat * f ∧ a.toNat * f ≤ 255 * f :=
    ⟨mul_nonneg (by omega) hlo, mul_le_mul_of_nonneg_right (by omega) hlo⟩
  have hright : 0 ≤ b.toNat * (65536 - f) ∧ b.toNat * (65536 - f) ≤ 255 * (65536 - f) :=
    ⟨mul_nonneg (by omega) (by omega), mul_le_mul_of_nonneg_right (by omega) (by omega)⟩
  have hdiv := Int.fdiv_eq_ediv_of_nonneg (a.toNat * f + b.toNat * (65536 - f)) (b := 65536) (by decide)
  rw [blendChannel, toChannel_toNat] <;> omega

@[simp] theorem blendChannel_self (f : Int) (a : Byte) : blendChannel f a a = a := by
  have hsum : a.toNat * f + a.toNat * (65536 - f) = (a.toNat : Int) * 65536 := by ring
  rw [blendChannel, hsum, Int.mul_fdiv_cancel _ (by decide), toChannel_toNat_self]

@[simp] theorem darkenChannel_one (a : Byte) : darkenChannel 65536 a = a := by
  apply BitVec.eq_of_toNat_eq
  have h := darkenChannel_toNat 65536 a
  rw [Int.mul_fdiv_cancel _ (by decide)] at h
  omega

@[simp] theorem lightenChannel_zero (a : Byte) : lightenChannel 0 a = a := by
  apply BitVec.eq_of_toNat_eq
  have h := lightenChannel_toNat 0 a
  rw [mul_zero, add_zero, Int.mul_fdiv_cancel _ (by decide)] at h
  omega

/-- A factor of 0 or less gives black in every channel (R142). -/
theorem darkenChannel_of_nonpos {f : Int} (hf : f ≤ 0) (a : Byte) : darkenChannel f a = 0 := by
  apply BitVec.eq_of_toNat_eq
  have h := darkenChannel_toNat f a
  have hprod : a.toNat * f ≤ 0 := mul_nonpos_of_nonneg_of_nonpos (by omega) hf
  rw [Int.fdiv_eq_ediv_of_nonneg _ (by decide)] at h
  simp only [BitVec.ofNat_eq_ofNat, BitVec.toNat_zero]
  omega

/-- A factor of 1 or more gives 255 in every channel (R143). -/
theorem lightenChannel_of_one_le {f : Int} (hf : 65536 ≤ f) (a : Byte) : lightenChannel f a = 255 := by
  apply BitVec.eq_of_toNat_eq
  have h := lightenChannel_toNat f a
  have ha := a.isLt
  have hprod : (255 - a.toNat) * 65536 ≤ (255 - a.toNat) * f := mul_le_mul_of_nonneg_left hf (by omega)
  rw [Int.fdiv_eq_ediv_of_nonneg _ (by decide)] at h
  simp only [BitVec.ofNat_eq_ofNat, BitVec.toNat_ofNat]
  omega

/-- A factor of 1 or more never darkens a channel (R142). -/
theorem le_darkenChannel {f : Int} (hf : 65536 ≤ f) (a : Byte) : a.toNat ≤ (darkenChannel f a).toNat := by
  have h := darkenChannel_toNat f a
  have ha := a.isLt
  have hprod : a.toNat * 65536 ≤ a.toNat * f := mul_le_mul_of_nonneg_left hf (by omega)
  rw [Int.fdiv_eq_ediv_of_nonneg _ (by decide)] at h
  omega

/-! ## BLEND by its three ranges of the fraction (R135) -/

section Blend

variable (c d : Color16) {f : Int}

theorem blendF_of_nonpos (hf : f ≤ 0) : blendF c d f = d := if_pos hf

theorem blendF_of_one_le (hf : 65536 ≤ f) : blendF c d f = c := (if_neg (by omega)).trans (if_pos hf)

theorem blendF_between (hlo : 0 < f) (hhi : f < 65536) :
    blendF c d f = packColor
      ⟨blendChannel f (unpackColor c).r (unpackColor d).r, blendChannel f (unpackColor c).g (unpackColor d).g,
        blendChannel f (unpackColor c).b (unpackColor d).b⟩ :=
  (if_neg (Int.not_le.2 hlo)).trans (if_neg (Int.not_le.2 hhi))

theorem blendF_self (f : Int) : blendF c c f = c := by
  by_cases hlo : f ≤ 0
  · exact blendF_of_nonpos c c hlo
  · by_cases hhi : 65536 ≤ f
    · exact blendF_of_one_le c c hhi
    · simp only [blendF_between c c (Int.not_le.1 hlo) (Int.not_le.1 hhi), blendChannel_self]
      exact packColor_unpackColor c

end Blend

/-! ## Operands and results -/

theorem Regs.packOperand_toNat (r : Regs) :
    r.packOperand.r.toNat = r.codecA.toNat % 256 ∧ r.packOperand.g.toNat = r.codecA.toNat / 256 % 256 ∧
      r.packOperand.b.toNat = r.codecA.toNat / 65536 % 256 := by
  simp [Regs.packOperand, Nat.shiftRight_eq_div_pow]

theorem Regs.colorA_eq (r : Regs) : r.colorA = r.codecA.setWidth 16 := (BitVec.setWidth_eq_extractLsb' (by decide)).symm

theorem Regs.colorB_eq (r : Regs) : r.colorB = r.codecB.setWidth 16 := (BitVec.setWidth_eq_extractLsb' (by decide)).symm

/-- UNPACK's operand with its bytes exchanged (R131). -/
theorem Regs.exchangeBytes_colorA_toNat (r : Regs) :
    (exchangeBytes r.colorA).toNat = r.codecA.toNat % 256 * 256 + r.codecA.toNat / 256 % 256 := by
  rw [exchangeBytes_toNat, Regs.colorA_eq, BitVec.toNat_setWidth]
  omega

theorem colorResult_toNat (c : Color16) : (colorResult c).toNat = c.toNat :=
  BitVec.toNat_setWidth_of_le (by decide)

theorem channelsResult_toNat (p : Rgb) :
    (channelsResult p).toNat = p.b.toNat * 65536 + p.g.toNat * 256 + p.r.toNat := by
  simp only [channelsResult, toNat_append_eq_add, BitVec.ofNat_eq_ofNat, BitVec.toNat_zero]
  omega

/-! ## The commands of an idle block -/

section Idle

variable {s : State} (h : s.regs.status.busy = false)

include h

theorem exec_pack_idle : exec .pack s = .next (s.codecResult (colorResult (packColor s.regs.packOperand))) :=
  congrArg Host.Outcome.next (accept_idle h _)

theorem exec_unpack_idle : exec .unpack s = .next (s.codecResult (channelsResult (unpackColor s.regs.colorA))) :=
  congrArg Host.Outcome.next (accept_idle h _)

theorem exec_blend_idle : exec .blend s =
    .next (s.codecResult (colorResult (blendF s.regs.colorA s.regs.colorB s.regs.fraction))) :=
  congrArg Host.Outcome.next (accept_idle h _)

theorem exec_darken_idle : exec .darken s =
    .next (s.codecResult (colorResult (darkenF s.regs.colorA s.regs.fraction))) :=
  congrArg Host.Outcome.next (accept_idle h _)

theorem exec_lighten_idle : exec .lighten s =
    .next (s.codecResult (colorResult (lightenF s.regs.colorA s.regs.fraction))) :=
  congrArg Host.Outcome.next (accept_idle h _)

/-- A codec command completes in the step of its CMD write (R138). -/
theorem exec_codec_idle {i : Instr} (hi : i ∈ [Instr.pack, .unpack, .blend, .darken, .lighten]) :
    ∃ v, exec i s = .next (s.codecResult v) := by
  cases i with
  | decode | inspect => simp at hi
  | pack => exact ⟨_, exec_pack_idle h⟩
  | unpack => exact ⟨_, exec_unpack_idle h⟩
  | blend => exact ⟨_, exec_blend_idle h⟩
  | darken => exact ⟨_, exec_darken_idle h⟩
  | lighten => exact ⟨_, exec_lighten_idle h⟩

end Idle

/-- The completion of a codec command leaves every register but STATUS and CODEC_RES (R138). -/
theorem State.codecResult_value (s : State) (v : Word) {g : HostReg} (hstatus : g ≠ .status) (hres : g ≠ .codecRes) :
    (s.codecResult v).regs.value g = s.regs.value g := by
  cases g with
  | status => exact absurd rfl hstatus
  | codecRes => exact absurd rfl hres
  | _ => rfl

end Sys2Proof.Machine

open Sys2Proof Sys2Proof.Machine

/-- Settles O20: the result is the packed colour, whose byte exchange is the 5-6-5 value. -/
theorem packResult : Obligations.PackResult := by
  unfold Obligations.PackResult
  intro s hidle
  refine ⟨_, exec_pack_idle hidle, _, rfl, ?_⟩
  obtain ⟨hr, hg, hb⟩ := s.regs.packOperand_toNat
  rw [colorResult_toNat, ← exchangeBytes_exchangeBytes (packColor _), exchangeBytes_toNat,
    exchangeBytes_packColor_toNat, hr, hg, hb]

/-- Settles O21: the byte exchange of CODEC_A[15:0] is the 5-6-5 value, whose fields the channels are. -/
theorem unpackResult : Obligations.UnpackResult := by
  unfold Obligations.UnpackResult
  intro s hidle
  refine ⟨_, exec_unpack_idle hidle, _, rfl, ?_⟩
  obtain ⟨hr, hg, hb⟩ := unpackColor_toNat s.regs.colorA
  rw [channelsResult_toNat, hr, hg, hb, Regs.exchangeBytes_colorA_toNat]

/-- Settles O22: by the three ranges of the fraction; between the endpoints an interpolated channel needs no clamp. -/
theorem blendResult : Obligations.BlendResult := by
  unfold Obligations.BlendResult
  intro s hidle
  rw [← Regs.colorA_eq, ← Regs.colorB_eq]
  refine ⟨_, exec_blend_idle hidle, blendF_of_nonpos _ _, blendF_of_one_le _ _, fun hlo hhi => ?_⟩
  rw [blendF_between (f := s.regs.fraction) _ _ hlo hhi]
  exact ⟨_, fun _ _ => rfl, _, _, rfl, rfl, unpackColor_packColor_of_channels (blendChannel_toNat hlo.le hhi.le ..)
    (blendChannel_toNat hlo.le hhi.le ..) (blendChannel_toNat hlo.le hhi.le ..)⟩

/-- Settles O23: a darkened channel is the clamp itself, and packing keeps its top bits. -/
theorem darkenResult : Obligations.DarkenResult := by
  unfold Obligations.DarkenResult
  intro s hidle
  rw [← Regs.colorA_eq]
  exact ⟨_, exec_darken_idle hidle, _, fun _ => rfl, _, rfl, unpackColor_packColor_of_channels
    (darkenChannel_toNat ..) (darkenChannel_toNat ..) (darkenChannel_toNat ..)⟩

/-- Settles O24: a lightened channel is the clamp itself, and packing keeps its top bits. -/
theorem lightenResult : Obligations.LightenResult := by
  unfold Obligations.LightenResult
  intro s hidle
  rw [← Regs.colorA_eq]
  exact ⟨_, exec_lighten_idle hidle, _, fun _ => rfl, _, rfl, unpackColor_packColor_of_channels
    (lightenChannel_toNat ..) (lightenChannel_toNat ..) (lightenChannel_toNat ..)⟩

/-- Settles O25: the two round trips; division by 8 or 4 is monotonic. -/
theorem packUnpackLaws : Obligations.PackUnpackLaws := by
  unfold Obligations.PackUnpackLaws
  refine ⟨packColor_unpackColor, unpackColor_packColor, fun p q => ?_, by decide, by decide⟩
  obtain ⟨hpr, hpg, hpb⟩ := unpackColor_packColor_toNat p
  obtain ⟨hqr, hqg, hqb⟩ := unpackColor_packColor_toNat q
  simp only [BitVec.le_def, hpr, hpg, hpb, hqr, hqg, hqb]
  omega

/-- Settles O26: the round trip gives the multiple of 8 or 4 below each channel. -/
theorem roundTripError : Obligations.RoundTripError := by
  unfold Obligations.RoundTripError
  refine ⟨fun p => ⟨_, rfl, ?_⟩, by decide⟩
  obtain ⟨hr, hg, hb⟩ := unpackColor_packColor_toNat p
  omega

/-- Settles O27: each case fixes the computed channels, and packing them gives the colour. -/
theorem colourCornerCases : Obligations.ColourCornerCases := by
  unfold Obligations.ColourCornerCases
  refine ⟨blendF_self, fun c => ⟨?_, ?_⟩, fun c f hf => ?_, fun c f hf => ?_, fun f hf => ?_⟩
  · simp only [darkenF, darkenChannel_one]
    exact packColor_unpackColor c
  · simp only [lightenF, lightenChannel_zero]
    exact packColor_unpackColor c
  · simp only [darkenF, darkenChannel_of_nonpos hf]
    decide
  · simp only [lightenF, lightenChannel_of_one_le hf]
    decide
  · have hwhite : unpackColor 0xFFFF = ⟨248, 252, 248⟩ := by decide
    rw [darkenF, hwhite]
    exact packColor_of_bright (le_darkenChannel hf.le 248) (le_darkenChannel hf.le 252) (le_darkenChannel hf.le 248)

/-- Settles O28: the completion of a codec command writes CODEC_RES and STATUS of an idle block, and nothing else. -/
theorem codecCommandsTouchNothingElse : Obligations.CodecCommandsTouchNothingElse := by
  unfold Obligations.CodecCommandsTouchNothingElse
  intro i s hi hidle
  obtain ⟨v, hexec⟩ := exec_codec_idle hidle hi
  exact ⟨_, hexec, rfl, rfl, rfl, rfl, rfl, rfl, rfl, rfl, fun _ => s.codecResult_value v⟩

end

section
/-! PIXEL: the colour of a pixel, and the sequencer after it (R181 to R183). -/

namespace Sys2Proof.Machine

open Sys2Proof

variable {s : State}

/-- ST after the last pixel of a row: the next row, or success (R179, R185). -/
def Sequencer.afterRow (st : Sequencer) : Sequencer :=
  if (st.row : Int) + 1 < st.loadH then { st with row := st.row + 1, step := .rowSeek }
  else { st with outcome := .ok, step := .release }

/-- ST after an accepted pixel: the next column, or the end of the row (R183). -/
def Sequencer.afterPixel (st : Sequencer) : Sequencer :=
  if (st.col : Int) + 1 < st.loadW then { st with col := st.col + 1 } else st.afterRow

theorem nextRow_afterRow (s : State) : nextRow s = .next { s with st := s.st.afterRow } := by
  unfold Sequencer.afterRow
  obtain ⟨hlt, h⟩ | ⟨hle, h⟩ := nextRow_cases s
  · rw [h, if_pos hlt]
    rfl
  · rw [h, if_neg (Int.not_lt.2 hle)]
    rfl

/-- An accepted pixel of the clip region (R181 to R183). -/
theorem stepPixel_accepts (hrows : s.st.InRows s.params) (hcol : (s.st.col : Int) < s.st.loadW)
    (hdraw : s.surfDraw = .accepts) :
    stepPixel s = .next
      { s.pixelDone (s.st.dx.toInt + s.st.col) (s.st.dy.toInt + s.st.row) s.pixelColor with
        st := s.st.afterPixel } := by
  rw [stepPixel, withRowBuf_fits (hrows.pixelBytes_le hcol), surfSet, hdraw]
  unfold Sequencer.afterPixel
  by_cases hnext : (s.st.col : Int) + 1 < s.st.loadW
  · rw [if_pos hnext]
    exact if_pos hnext
  · rw [if_neg hnext]
    exact (if_neg hnext).trans (nextRow_afterRow _)

theorem fallbackColor_eq : fallbackColor = 0x0000 := by decide

/-- The colour of an 8-bit pixel whose index is below ST.palLen (R181). -/
theorem indexedColor_listed {idx : Byte} (h : idx.toNat < s.st.palLen) :
    indexedColor s idx = s.pal[idx.toNat]'idx.isLt :=
  if_pos h

/-- The colour of an 8-bit pixel whose index is not below ST.palLen is black (R134, R181). -/
theorem indexedColor_unlisted {idx : Byte} (h : s.st.palLen ≤ idx.toNat) : indexedColor s idx = 0x0000 :=
  (if_neg (Nat.not_lt.2 h)).trans fallbackColor_eq

theorem State.pixelColor_of_8_bits (h : s.st.bpp = 8) : s.pixelColor = indexedColor s (s.rowBuf.read s.st.col) :=
  if_pos h

theorem State.pixelColor_of_24_bits (h : s.st.bpp = 24) :
    s.pixelColor = packColor ⟨s.rowBuf.read (3 * s.st.col + 2), s.rowBuf.read (3 * s.st.col + 1),
      s.rowBuf.read (3 * s.st.col)⟩ :=
  if_neg (by simp [h])

end Sys2Proof.Machine

open Sys2Proof Sys2Proof.Machine

/-- Settles O50: the pixel lies within ROWBUF by the invariant, so it is written, and the loop goes on by its bounds. -/
theorem pixelIsWritten : Obligations.PixelIsWritten := by
  unfold Obligations.PixelIsWritten
  intro s hinv hop hstep hdraw
  obtain ⟨hrows, hcol⟩ := hinv.pixel hop hstep
  refine ⟨s.pixelColor, s.st.afterPixel, ?_, fun h8 idx hidx => ?_, State.pixelColor_of_24_bits,
    fun hnext => if_pos hnext, fun hlast hnext => ?_, fun hlast hend => ?_⟩
  · rw [blockStep_running hop, runningStep_pixel hstep, stepPixel_accepts hrows hcol hdraw]
    rfl
  · obtain rfl : idx = ⟨(s.rowBuf.read s.st.col).toNat, (s.rowBuf.read s.st.col).isLt⟩ := Fin.ext hidx.symm
    rw [State.pixelColor_of_8_bits h8]
    exact ⟨indexedColor_listed, indexedColor_unlisted⟩
  · exact (if_neg (Int.not_lt.2 hlast)).trans (if_pos hnext)
  · exact (if_neg (Int.not_lt.2 hlast)).trans (if_neg (Int.not_lt.2 hend))

end

section
/-! The events of a running command one by one (R160 to R180): which step the block takes, and ST after an answered
request, as a function of ST, the parameters and the registers. -/

namespace Sys2Proof.Machine

open Sys2Proof

/-! ## Which step the block takes -/

/-- The step of the sequencer at each of its places (R37). -/
def SeqStep.run : SeqStep → State → StepResult
  | .seekFH => stepSeekFH
  | .readFH => stepReadFH
  | .readIH => stepReadIH
  | .seekPal => stepSeekPal
  | .readPal => stepReadPal
  | .rowSeek => stepRowSeek
  | .rowRead => stepRowRead
  | .pixel => stepPixel
  | .release => stepRelease
  | .complete => stepComplete

variable {s : State}

theorem blockStep_at (hop : s.st.op ≠ .none) {q : SeqStep} (hstep : s.st.step = q) : blockStep s = q.run s := by
  subst hstep
  rw [blockStep_running hop, runningStep]
  cases s.st.step <;> rfl

/-- A SEEK that is answered OK goes on with the position set (R62). -/
theorem srcSeek_answered (h : s.AnswersSeek) (o : Nat) (k : State → StepResult) :
    srcSeek s o k = k (s.seekDone o) := by
  obtain ⟨hdraw, -⟩ | ⟨hdraw, -⟩ | ⟨-, -, hk⟩ := srcSeek_cases s o k
  · exact absurd hdraw h.1
  · exact absurd hdraw h.2
  · exact hk

theorem stepSeekFH_answered (h : s.AnswersSeek) : stepSeekFH s = .next ((s.seekDone 0).goto .readFH) :=
  srcSeek_answered h 0 _

theorem stepSeekPal_answered (h : s.AnswersSeek) : stepSeekPal s = .next ((s.seekDone palOff).goto .readPal) :=
  srcSeek_answered h palOff _

theorem stepRowSeek_answered (h : s.AnswersSeek) :
    stepRowSeek s =
      .next ((s.seekDone (rowOffset s.st.pixOff s.st.height s.st.rowStride s.st.row)).goto .rowRead) :=
  srcSeek_answered h _ _

/-- A choice between next states that differ in ST alone is a choice of ST. -/
theorem ite_eq_next {c : Prop} [Decidable c] {x y : StepResult} {a b : Sequencer}
    (hx : c → x = .next { s with st := a }) (hy : ¬c → y = .next { s with st := b }) :
    (if c then x else y) = .next { s with st := if c then a else b } := by
  split
  · exact hx ‹_›
  · exact hy ‹_›

/-! ## The issue -/

theorem exec_inspect_idle (h : s.regs.status.busy = false) : exec .inspect s = .next (s.issue .inspect) :=
  congrArg Host.Outcome.next (accept_idle h _)

/-- The state in which DECODE has been issued, its placement latched (R160). -/
def State.issueDecode (s : State) : State :=
  { s.issue .decode with st := { (s.issue .decode).st with dx := s.regs.destX, dy := s.regs.destY } }

theorem exec_decode_idle (h : s.regs.status.busy = false) : exec .decode s = .next s.issueDecode :=
  congrArg Host.Outcome.next (accept_idle h _)

/-! ## READ_FH -/

theorem signatureMatches_iff (p : Params) (fh : List Byte) :
    signatureMatches p fh = true ↔ fh[0]? = some p.magic0 ∧ fh[1]? = some p.magic1 := by
  match fh with
  | [] | [_] => simp [signatureMatches]
  | b0 :: b1 :: _ => simp [signatureMatches, byteAt]

/-- ST when a command ends with an outcome (R17). -/
def Sequencer.ended (st : Sequencer) (o : CmdOutcome) : Sequencer := { st with outcome := o, step := .release }

/-- ST with the file header latched (R164). -/
def Sequencer.withFileHeader (st : Sequencer) (fh : List Byte) : Sequencer :=
  { st with fileSize := le32 fh 2, pixOff := le32 fh 10, step := .readIH }

/-- ST after an answered READ_FH (R162 to R164). -/
def Sequencer.fileHeaderRead (st : Sequencer) (p : Params) (fh : List Byte) : Sequencer :=
  if signatureMatches p fh = false then st.ended (.format .badSignature)
  else if fh.length < fileHdrLen then st.ended (.unsupported .shortHeader)
  else st.withFileHeader fh

theorem stepReadFH_answered {fh : List Byte} (h : s.AnswersRead fileHdrLen fh) {st : Sequencer}
    (hst : s.st.fileHeaderRead s.params fh = st) :
    stepReadFH s = .next { s.readDone fileHdrLen fh with st := st } := by
  rw [stepReadFH, srcRead_answered h, ← hst]
  exact ite_eq_next (fun _ => rfl) fun _ => ite_eq_next (fun _ => rfl) fun _ => rfl

section FileHeader

variable {st : Sequencer} {p : Params} {fh : List Byte}

theorem Sequencer.fileHeaderRead_badSignature (h : signatureMatches p fh = false) :
    st.fileHeaderRead p fh = st.ended (.format .badSignature) := if_pos h

theorem Sequencer.fileHeaderRead_short (h : signatureMatches p fh = true) (hlen : fh.length < fileHdrLen) :
    st.fileHeaderRead p fh = st.ended (.unsupported .shortHeader) :=
  (if_neg (by simp [h])).trans (if_pos hlen)

theorem Sequencer.fileHeaderRead_whole (h : signatureMatches p fh = true) (hlen : fileHdrLen ≤ fh.length) :
    st.fileHeaderRead p fh = st.withFileHeader fh :=
  (if_neg (by simp [h])).trans (if_neg (Nat.not_lt.2 hlen))

end FileHeader

/-! ## READ_IH -/

theorem stepReadIH_short {ih : List Byte} (h : s.AnswersRead infoHdrLen ih) (hlen : ih.length < infoHdrLen) :
    stepReadIH s = .next ((s.readDone infoHdrLen ih).endCommand (.unsupported .shortHeader)) := by
  rw [stepReadIH, srcRead_answered h]
  exact if_pos hlen

section Format

variable {bpp : BitVec 16} {comp : Word} {planes : BitVec 16}

theorem validateFormat_depth (h8 : bpp ≠ 8) (h24 : bpp ≠ 24) :
    validateFormat bpp comp planes = some .unsupportedDepth := if_pos ⟨h8, h24⟩

theorem validateFormat_of_depth (h : bpp = 8 ∨ bpp = 24) :
    validateFormat bpp comp planes =
      if comp ≠ 0 then some .compressionUnsupported else if planes ≠ 1 then some .badPlaneCount else none :=
  if_neg (by tauto)

theorem validateFormat_compression (h : bpp = 8 ∨ bpp = 24) (hcomp : comp ≠ 0) :
    validateFormat bpp comp planes = some .compressionUnsupported :=
  (validateFormat_of_depth h).trans (if_pos hcomp)

theorem validateFormat_planes (h : bpp = 8 ∨ bpp = 24) (hcomp : comp = 0) (hplanes : planes ≠ 1) :
    validateFormat bpp comp planes = some .badPlaneCount :=
  (validateFormat_of_depth h).trans ((if_neg (not_not.2 hcomp)).trans (if_pos hplanes))

theorem validateFormat_none (h : bpp = 8 ∨ bpp = 24) (hcomp : comp = 0) (hplanes : planes = 1) :
    validateFormat bpp comp planes = none :=
  (validateFormat_of_depth h).trans ((if_neg (not_not.2 hcomp)).trans (if_neg (not_not.2 hplanes)))

end Format

theorem bytesPerPixel_eq {bpp : BitVec 16} (h : bpp = 8 ∨ bpp = 24) : bytesPerPixel bpp = if bpp = 8 then 1 else 3 := by
  obtain rfl | rfl := h <;> decide

section Start

variable (st : Sequencer) (p : Params) (r : Regs)

/-- ST with the clip region latched, before its first row (R178). -/
def Sequencer.clipped : Sequencer :=
  { st with
    loadW := clipLength (r.clipCtrl.getLsbD 0) st.width r.maxW
    loadH := clipLength (r.clipCtrl.getLsbD 1) st.height r.maxH
    row := 0 }

/-- ST at the start of the row loop: no row, or the first (R178, R179). -/
def Sequencer.entered : Sequencer :=
  if (st.clipped r).loadH ≤ 0 then (st.clipped r).ended .ok else { st.clipped r with step := .rowSeek }

theorem enterRows_entered (s : State) : enterRows s = .next { s with st := s.st.entered s.regs } :=
  ite_eq_next (fun _ => rfl) fun _ => rfl

/-- ST with the row stride latched (R173). -/
def Sequencer.withStride : Sequencer :=
  { st with bpg := bytesPerPixel st.bpp, rowStride := rowStrideOf st.width (bytesPerPixel st.bpp) }

/-- ST after the header of a DECODE has passed: the tests of R172 and R174, and then the palette or the rows. -/
def Sequencer.started : Sequencer :=
  if st.width.toInt < 0 ∨ st.height.toInt < 0 then st.ended (.unsupported .negativeDimension)
  else if p.rowBufMax < st.withStride.rowStride then st.withStride.ended (.unsupported .rowTooLong)
  else if st.bpp = 8 then { st.withStride with step := .seekPal }
  else st.withStride.entered r

theorem startTransfer_started (s : State) :
    startTransfer s = .next { s with st := s.st.started s.params s.regs } :=
  ite_eq_next (fun _ => rfl) fun _ => ite_eq_next (fun _ => rfl) fun _ => ite_eq_next (fun _ => rfl) fun _ =>
    enterRows_entered s.latchStride

/-- ST after READ_IH's validation (R168), and what follows a header that passes it (R170, R172). -/
def Sequencer.validated : Sequencer :=
  match validateFormat st.bpp st.comp st.planes with
  | some k => st.ended (.format k)
  | none => if st.op = .inspect then st.ended .ok else st.started p r

theorem validateHeader_validated (s : State) :
    validateHeader s = .next { s with st := s.st.validated s.params s.regs } := by
  unfold validateHeader Sequencer.validated
  cases validateFormat s.st.bpp s.st.comp s.st.planes with
  | some k => rfl
  | none => exact ite_eq_next (fun _ => rfl) fun _ => startTransfer_started s

variable {st p r}

theorem Sequencer.validated_failed {k : FormatKind} (h : validateFormat st.bpp st.comp st.planes = some k) :
    st.validated p r = st.ended (.format k) := by
  rw [Sequencer.validated, h]

theorem Sequencer.validated_inspect (h : validateFormat st.bpp st.comp st.planes = none) (hop : st.op = .inspect) :
    st.validated p r = st.ended .ok := by
  rw [Sequencer.validated, h]
  exact if_pos hop

theorem Sequencer.validated_decode (h : validateFormat st.bpp st.comp st.planes = none) (hop : st.op = .decode) :
    st.validated p r = st.started p r := by
  rw [Sequencer.validated, h]
  exact if_neg (by simp [hop])

theorem Sequencer.entered_empty (h : (st.clipped r).loadH ≤ 0) : st.entered r = (st.clipped r).ended .ok := if_pos h

theorem Sequencer.entered_first (h : 0 < (st.clipped r).loadH) : st.entered r = { st.clipped r with step := .rowSeek } :=
  if_neg (Int.not_le.2 h)

theorem Sequencer.started_negative (h : st.width.toInt < 0 ∨ st.height.toInt < 0) :
    st.started p r = st.ended (.unsupported .negativeDimension) := if_pos h

variable (hw : 0 ≤ st.width.toInt) (hh : 0 ≤ st.height.toInt)

include hw hh

theorem Sequencer.started_tooLong (hlong : p.rowBufMax < st.withStride.rowStride) :
    st.started p r = st.withStride.ended (.unsupported .rowTooLong) :=
  (if_neg (by omega)).trans (if_pos hlong)

theorem Sequencer.started_palette (hfits : st.withStride.rowStride ≤ p.rowBufMax) (h8 : st.bpp = 8) :
    st.started p r = { st.withStride with step := .seekPal } :=
  (if_neg (by omega)).trans ((if_neg (Nat.not_lt.2 hfits)).trans (if_pos h8))

theorem Sequencer.started_rows (hfits : st.withStride.rowStride ≤ p.rowBufMax) (h8 : st.bpp ≠ 8) :
    st.started p r = st.withStride.entered r :=
  (if_neg (by omega)).trans ((if_neg (Nat.not_lt.2 hfits)).trans (if_neg h8))

end Start

/-- An answered READ_IH of a whole info header (R167, R168). -/
theorem blockStep_readIH_whole (hop : s.st.op ≠ .none) (hstep : s.st.step = .readIH) {ih : List Byte}
    (h : s.AnswersRead infoHdrLen ih) (hlen : ih.length = infoHdrLen) {st : Sequencer}
    (hst : (s.latchInfoHeader ih).st.validated s.params s.regs = st) :
    blockStep s = .next { s.readDone infoHdrLen ih with st := st } := by
  rw [blockStep_at hop hstep, ← hst]
  exact (stepReadIH_whole h hlen).trans (validateHeader_validated _)

/-! ## READ_PAL and ROW_SEEK -/

theorem stepReadPal_short {pb : List Byte} (h : s.AnswersRead (palEntryLen * paletteCount s.st.clrUsed) pb)
    (hlen : pb.length < palEntryLen * paletteCount s.st.clrUsed) :
    stepReadPal s = .next
      ((s.readDone (palEntryLen * paletteCount s.st.clrUsed) pb).endCommand (.format .truncatedPalette)) := by
  rw [stepReadPal, srcRead_answered h]
  exact if_pos hlen

theorem stepReadPal_whole {pb : List Byte} (h : s.AnswersRead (palEntryLen * paletteCount s.st.clrUsed) pb)
    (hlen : pb.length = palEntryLen * paletteCount s.st.clrUsed) {st : Sequencer}
    (hst : { s.st with palLen := paletteCount s.st.clrUsed }.entered s.regs = st) :
    stepReadPal s = .next { s.readDone (palEntryLen * paletteCount s.st.clrUsed) pb with
      pal := buildPalette s.pal (paletteCount s.st.clrUsed) pb
      st := st } := by
  rw [stepReadPal, srcRead_answered h, ← hst]
  exact (if_neg (Nat.not_lt.2 hlen.ge)).trans (enterRows_entered _)

theorem buildPalette_getElem_kept (old : Palette) {n : Nat} (pb : List Byte) {k : Fin 256} (hk : n ≤ k.val) :
    (buildPalette old n pb)[k] = old[k] := by
  simp [buildPalette, Nat.not_lt.2 hk]

theorem Invariant.rowSeek (h : Invariant s) (hop : s.st.op ≠ .none) (hstep : s.st.step = .rowSeek) :
    s.st.InRows s.params := by
  have hrun := h.running hop
  rwa [Sequencer.Running, hstep] at hrun

/-- The offset of a stored row is not negative for a row of the image (R64, R180). -/
theorem rowOffset_toInt (pixOff : Word) {height : Word} (stride : Nat) {row : Nat} (h : (row : Int) < height.toInt) :
    (rowOffset pixOff height stride row : Int) = pixOff.toNat + (height.toInt - 1 - row) * stride := by
  have hrow : 0 ≤ (height.toInt - 1 - row) * stride := mul_nonneg (by omega) (by omega)
  exact Int.toNat_of_nonneg (by rw [storedRow]; omega)

end Sys2Proof.Machine

open Sys2Proof Sys2Proof.Machine

/-- Settles O29: an idle block accepts the command, and its issue writes STATUS and ST. -/
theorem issueStartsTheSequencer : Obligations.IssueStartsTheSequencer :=
  ⟨decode_encode .inspect, decode_encode .decode, fun _ hidle => ⟨exec_inspect_idle hidle, exec_decode_idle hidle⟩⟩

/-- Settles O40: the step at SEEK_FH is the SEEK, answered. -/
theorem firstEventSeeksToZero : Obligations.FirstEventSeeksToZero :=
  fun _ hop hstep hans => (blockStep_at hop hstep).trans (stepSeekFH_answered hans)

/-- Settles O41: by the two tests of the answer, in their order. -/
theorem fileHeaderIsChecked : Obligations.FileHeaderIsChecked := by
  unfold Obligations.FileHeaderIsChecked
  intro s fh hop hstep hans
  rw [blockStep_at hop hstep, ← signatureMatches_iff, Bool.not_eq_true]
  refine ⟨fun hsig => ?_, fun h0 h1 hlen => ?_, fun h0 h1 hlen => ?_⟩
  · exact stepReadFH_answered hans (Sequencer.fileHeaderRead_badSignature hsig)
  · exact stepReadFH_answered hans (Sequencer.fileHeaderRead_short ((signatureMatches_iff ..).2 ⟨h0, h1⟩) hlen)
  · exact stepReadFH_answered hans (Sequencer.fileHeaderRead_whole ((signatureMatches_iff ..).2 ⟨h0, h1⟩) hlen.ge)

/-- Settles O42: a whole header is latched and validated; each failing test decides before the later ones. -/
theorem headerIsValidatedInOrder : Obligations.HeaderIsValidatedInOrder := by
  unfold Obligations.HeaderIsValidatedInOrder
  intro s ih hop hstep hans
  refine ⟨fun hlen => (blockStep_at hop hstep).trans (stepReadIH_short hans hlen), fun hlen => ?_⟩
  refine ⟨(s.latchInfoHeader ih).st, ?_, fun h8 h24 => ?_, fun hbpp hcomp => ?_, fun hbpp hcomp hplanes => ?_,
    fun hbpp hcomp hplanes hinspect => ?_⟩
  · rw [State.latchInfoHeader_st, clrUsedIndex]
    cases s.params.clrUsedOff <;> rfl
  · exact blockStep_readIH_whole hop hstep hans hlen (Sequencer.validated_failed (validateFormat_depth h8 h24))
  · exact blockStep_readIH_whole hop hstep hans hlen (Sequencer.validated_failed (validateFormat_compression hbpp hcomp))
  · exact blockStep_readIH_whole hop hstep hans hlen
      (Sequencer.validated_failed (validateFormat_planes hbpp hcomp hplanes))
  · exact blockStep_readIH_whole hop hstep hans hlen
      (Sequencer.validated_inspect (validateFormat_none hbpp hcomp hplanes) hinspect)

/-- Settles O43: the header passes the validation, and the tests of the start of the transfer follow in their order. -/
theorem decodeChecksDimensionsAndStride : Obligations.DecodeChecksDimensionsAndStride := by
  unfold Obligations.DecodeChecksDimensionsAndStride
  intro s ih hop hstep hans hlen hbpp hcomp hplanes
  have hstarted : (s.latchInfoHeader ih).st.validated s.params s.regs =
      (s.latchInfoHeader ih).st.started s.params s.regs :=
    Sequencer.validated_decode (validateFormat_none hbpp hcomp hplanes) hop
  have hblock {st : Sequencer} (hst : (s.latchInfoHeader ih).st.started s.params s.regs = st) :
      blockStep s = .next { s.readDone infoHdrLen ih with st := st } :=
    blockStep_readIH_whole (by simp [hop]) hstep hans hlen (hstarted.trans hst)
  refine ⟨(s.latchInfoHeader ih).st, bytesPerPixel (le16 ih 14), rowStrideOf (le32 ih 4) (bytesPerPixel (le16 ih 14)),
    ((s.latchInfoHeader ih).st.withStride.clipped s.regs).loadW,
    ((s.latchInfoHeader ih).st.withStride.clipped s.regs).loadH, ?_, bytesPerPixel_eq hbpp, rfl, rfl, fun hneg => hblock (Sequencer.started_negative hneg), fun hw hh => ?_⟩
  · rw [State.latchInfoHeader_st, clrUsedIndex]
    cases s.params.clrUsedOff <;> rfl
  obtain ⟨-, hlo, hhi⟩ := rowStrideRoundsUp (le32 ih 4) (bytesPerPixel (le16 ih 14)) hw
  have hrows (hfits : rowStrideOf (le32 ih 4) (bytesPerPixel (le16 ih 14)) ≤ s.params.rowBufMax)
      (h24 : le16 ih 14 = 24) : (s.latchInfoHeader ih).st.started s.params s.regs =
        (s.latchInfoHeader ih).st.withStride.entered s.regs :=
    Sequencer.started_rows hw hh hfits (by simp [h24])
  refine ⟨Nat.mul_mod_left .., hlo, hhi, fun hlong => hblock (Sequencer.started_tooLong hw hh hlong),
    fun hfits h8 => hblock (Sequencer.started_palette hw hh hfits h8),
    fun hfits h24 hpos => hblock ((hrows hfits h24).trans (Sequencer.entered_first hpos)),
    fun hfits h24 hempty => ⟨0, hblock ((hrows hfits h24).trans (Sequencer.entered_empty hempty))⟩⟩

/-- Settles O46: READ_PAL builds the palette of a whole answer, and then enters the row loop. -/
theorem paletteIsBuilt : Obligations.PaletteIsBuilt := by
  unfold Obligations.PaletteIsBuilt
  refine ⟨fun s hop hstep hans => (blockStep_at hop hstep).trans (stepSeekPal_answered hans), ?_⟩
  rintro s n pb hop hstep hn hans
  obtain rfl : n = paletteCount s.st.clrUsed := hn
  rw [blockStep_at hop hstep]
  refine ⟨stepReadPal_short hans, fun hlen => ?_⟩
  refine ⟨buildPalette s.pal (paletteCount s.st.clrUsed) pb, (s.st.clipped s.regs).loadW, (s.st.clipped s.regs).loadH,
    fun k => ⟨buildPalette_getElem_built _ _, buildPalette_getElem_kept _ _⟩, rfl, rfl, fun hpos => ?_,
    fun hempty => ⟨0, ?_⟩⟩
  · exact stepReadPal_whole hans hlen (Sequencer.entered_first hpos)
  · exact stepReadPal_whole hans hlen (Sequencer.entered_empty hempty)

/-- Settles O48: the row is one of the image's, so its offset is not cut off at 0. -/
theorem rowsAreReadBottomUp : Obligations.RowsAreReadBottomUp := by
  unfold Obligations.RowsAreReadBottomUp
  intro s hinv hop hstep hans
  have hrows := hinv.rowSeek hop hstep
  exact ⟨_, rowOffset_toInt _ _ (hrows.row.trans_le hrows.loadH),
    (blockStep_at hop hstep).trans (stepRowSeek_answered hans)⟩

end

section
/-! The pseudocode of R171 and R186, said once by the tests it passes: the header's events and result, the transfer's, and
the colour of a column. -/

namespace Sys2Proof.Machine

open Sys2Proof

/-! ## The header -/

section Header

variable (p : Params) (S : List Byte)

/-- The header of a file that has both headers whole (R164, R167). -/
def fileHeader : ImageHeader := parseHeader p (fileRead S 0 14) (fileRead S 14 40)

/-- The events up to the file header (R161, R162). -/
def fileHeaderEvents : List Event := [.seek 0 .ok, .read 14 (.bytes (fileRead S 0 14))]

/-- The events up to the info header (R165). -/
def headerEvents : List Event := fileHeaderEvents S ++ [.read 40 (.bytes (fileRead S 14 40))]

/-- What the header's steps can issue and end in (R162 to R168). -/
inductive HeaderRun : List Event → Except CmdOutcome ImageHeader → Prop
  | badSignature (hsig : signatureMatches p (fileRead S 0 14) = false) :
    HeaderRun (fileHeaderEvents S) (.error (.format .badSignature))
  | shortFileHeader (hsig : signatureMatches p (fileRead S 0 14) = true) (hfh : (fileRead S 0 14).length < 14) :
    HeaderRun (fileHeaderEvents S) (.error (.unsupported .shortHeader))
  | shortInfoHeader (hsig : signatureMatches p (fileRead S 0 14) = true) (hfh : 14 ≤ (fileRead S 0 14).length)
    (hih : (fileRead S 14 40).length < 40) : HeaderRun (headerEvents S) (.error (.unsupported .shortHeader))
  | invalid (hsig : signatureMatches p (fileRead S 0 14) = true) (hfh : 14 ≤ (fileRead S 0 14).length)
    (hih : 40 ≤ (fileRead S 14 40).length) {k : FormatKind}
    (hk : validateFormat (fileHeader p S).bpp (fileHeader p S).comp (fileHeader p S).planes = some k) :
    HeaderRun (headerEvents S) (.error (.format k))
  | passed (hsig : signatureMatches p (fileRead S 0 14) = true) (hfh : 14 ≤ (fileRead S 0 14).length)
    (hih : 40 ≤ (fileRead S 14 40).length)
    (hnone : validateFormat (fileHeader p S).bpp (fileHeader p S).comp (fileHeader p S).planes = none) :
    HeaderRun (headerEvents S) (.ok (fileHeader p S))

theorem signatureMatches_eq_false_iff (fh : List Byte) :
    signatureMatches p fh = false ↔ fh.length < 2 ∨ byteAt fh 0 ≠ p.magic0 ∨ byteAt fh 1 ≠ p.magic1 := by
  simp only [signatureMatches, Bool.and_eq_false_iff, decide_eq_false_iff_not, beq_eq_false_iff_ne, Nat.not_le,
    or_assoc, ne_eq]

/-- The pseudocode of the header, with its last three tests as the validation of READ_IH (R168). -/
theorem headerProgram_eq :
    headerProgram p S =
      if signatureMatches p (fileRead S 0 14) = false then (fileHeaderEvents S, .error (.format .badSignature))
      else if (fileRead S 0 14).length < 14 then (fileHeaderEvents S, .error (.unsupported .shortHeader))
      else if (fileRead S 14 40).length < 40 then (headerEvents S, .error (.unsupported .shortHeader))
      else (headerEvents S,
        ((validateFormat (fileHeader p S).bpp (fileHeader p S).comp (fileHeader p S).planes).elim
          (.ok (fileHeader p S)) fun k => .error (.format k))) := by
  simp only [signatureMatches_eq_false_iff]
  refine ite_congr rfl (fun _ => rfl) fun _ => ite_congr rfl (fun _ => rfl) fun _ =>
    ite_congr rfl (fun _ => rfl) fun _ => ?_
  unfold validateFormat
  change (if (fileHeader p S).bpp ≠ 8 ∧ (fileHeader p S).bpp ≠ 24 then _
    else if (fileHeader p S).comp ≠ 0 then _ else if (fileHeader p S).planes ≠ 1 then _ else _) = _
  split_ifs <;> rfl

theorem headerProgram_run : HeaderRun p S (headerProgram p S).1 (headerProgram p S).2 := by
  rw [headerProgram_eq]
  split
  · exact .badSignature ‹_›
  next hsig =>
  rw [Bool.not_eq_false] at hsig
  split
  · exact .shortFileHeader hsig ‹_›
  next hfh =>
  rw [Nat.not_lt] at hfh
  split
  · exact .shortInfoHeader hsig hfh ‹_›
  next hih =>
  rw [Nat.not_lt] at hih
  cases hv : validateFormat (fileHeader p S).bpp (fileHeader p S).comp (fileHeader p S).planes with
  | some k => exact .invalid hsig hfh hih hv
  | none => exact .passed hsig hfh hih hv

end Header

/-! ## The transfer -/

section Transfer

variable {p : Params} {r : Regs} {S : List Byte} {h : ImageHeader}

/-- The row loop's constants for a header, CLIP_CTRL and the placement (R173, R178). -/
def headerJob (r : Regs) (h : ImageHeader) : RowJob where
  pixOff := h.pixOff
  height := h.height
  rowStride := rowStrideOf h.width (bytesPerPixel h.bpp)
  loadW := (clipLength (r.clipCtrl.getLsbD 0) h.width r.maxW).toNat
  dx := r.destX.toInt
  dy := r.destY.toInt

/-- The rows of the clip region, by their number (R178). -/
def headerRows (r : Regs) (h : ImageHeader) : Nat := (clipLength (r.clipCtrl.getLsbD 1) h.height r.maxH).toNat

/-- The palette bytes of a file (R175). -/
def filePalette (S : List Byte) (h : ImageHeader) : List Byte := fileRead S 54 (4 * paletteCount h.clrUsed)

/-- The events up to the palette (R175). -/
def paletteEvents (S : List Byte) (h : ImageHeader) : List Event :=
  [.seek 54 .ok, .read (4 * paletteCount h.clrUsed) (.bytes (filePalette S h))]

theorem transferProgram_negative (hneg : h.width.toInt < 0 ∨ h.height.toInt < 0) :
    transferProgram p r S h = ([], .unsupported .negativeDimension) := if_pos hneg

variable (hdim : ¬(h.width.toInt < 0 ∨ h.height.toInt < 0))

include hdim

theorem transferProgram_tooLong (hlong : p.rowBufMax < rowStrideOf h.width (bytesPerPixel h.bpp)) :
    transferProgram p r S h = ([], .unsupported .rowTooLong) := (if_neg hdim).trans (if_pos hlong)

variable (hfits : ¬p.rowBufMax < rowStrideOf h.width (bytesPerPixel h.bpp))

include hfits

theorem transferProgram_shortPalette (h8 : h.bpp = 8)
    (hlen : (filePalette S h).length < 4 * paletteCount h.clrUsed) :
    transferProgram p r S h = (paletteEvents S h, .format .truncatedPalette) :=
  (if_neg hdim).trans <| (if_neg hfits).trans <| (if_pos h8).trans (if_pos hlen)

theorem transferProgram_indexed (h8 : h.bpp = 8)
    (hlen : ¬(filePalette S h).length < 4 * paletteCount h.clrUsed) :
    transferProgram p r S h =
      (paletteEvents S h ++
        (rowsProgram S (headerJob r h) (indexedPixel (paletteCount h.clrUsed) (filePalette S h)) (headerRows r h) 0).1,
      (rowsProgram S (headerJob r h) (indexedPixel (paletteCount h.clrUsed) (filePalette S h)) (headerRows r h) 0).2) :=
  (if_neg hdim).trans <| (if_neg hfits).trans <| (if_pos h8).trans (if_neg hlen)

theorem transferProgram_trueColor (h8 : h.bpp ≠ 8) :
    transferProgram p r S h = rowsProgram S (headerJob r h) trueColorPixel (headerRows r h) 0 :=
  (if_neg hdim).trans <| (if_neg hfits).trans (if_neg h8)

end Transfer

/-! ## The row loop -/

section Rows

variable {S : List Byte} {j : RowJob} {color : List Byte → Nat → Color16}

/-- The offset of the stored row of a destination row (R180). -/
def RowJob.offset (j : RowJob) (row : Nat) : Nat := rowOffset j.pixOff j.height j.rowStride row

/-- The bytes of a row, as far as the file has them (R180). -/
def RowJob.rowBytes (j : RowJob) (S : List Byte) (row : Nat) : List Byte := fileRead S (j.offset row) j.rowStride

/-- The two requests of a row (R180). -/
def RowJob.requests (j : RowJob) (S : List Byte) (row : Nat) : List Event :=
  [.seek (j.offset row) .ok, .read j.rowStride (.bytes (j.rowBytes S row))]

/-- All events of a row that the file has (R180 to R183). -/
def RowJob.rowEvents (j : RowJob) (S : List Byte) (color : List Byte → Nat → Color16) (row : Nat) : List Event :=
  j.requests S row ++ rowPixels j color row (j.rowBytes S row)

theorem rowsProgram_truncated {left row : Nat} (h : (j.rowBytes S row).length < j.rowStride) :
    rowsProgram S j color (left + 1) row = (j.requests S row, .format .truncatedRow) := if_pos h

theorem rowsProgram_whole {left row : Nat} (h : ¬(j.rowBytes S row).length < j.rowStride) :
    rowsProgram S j color (left + 1) row =
      (j.rowEvents S color row ++ (rowsProgram S j color left (row + 1)).1,
      (rowsProgram S j color left (row + 1)).2) := if_neg h

end Rows

/-! ## Lengths -/

theorem fileRead_length_le (S : List Byte) (pos n : Nat) : (fileRead S pos n).length ≤ n := by
  simp [fileRead]

end Sys2Proof.Machine

end

section
/-! A run in which the block alone moves and both ports cooperate: what the events leave outside the block's scratch, and
the scratch after each event. -/

namespace Sys2Proof.Machine

open Sys2Proof

/-! ## Runs -/

section Run

variable (M : Host.Core) {s t : M.State}

theorem run_succ (h : M.step s = .next t) (n : Nat) : M.run (n + 1) s = M.run n t := by
  simp only [Host.Core.run, h]

theorem exists_step_of_run {n : Nat} (h : M.run (n + 1) s = .next t) :
    ∃ u, M.step s = .next u ∧ M.run n u = .next t := by
  simp only [Host.Core.run] at h
  cases hu : M.step s with
  | next u => exact ⟨u, rfl, by rwa [hu] at h⟩
  | fault f => exact nomatch hu ▸ h
  | refused r => exact nomatch hu ▸ h

/-- The steps after the first `m`. -/
theorem run_add {m : Nat} (h : M.run m s = .next t) (n : Nat) : M.run (m + n) s = M.run n t := by
  induction m generalizing s with
  | zero =>
    cases h
    rw [Nat.zero_add]
  | succ m ih =>
    obtain ⟨u, hu, hrun⟩ := exists_step_of_run M h
    rw [Nat.add_right_comm, run_succ M hu, ih hrun]

/-- What every step keeps, every run keeps. -/
theorem run_keeps {P : M.State → Prop} (hstep : ∀ u v, P u → M.step u = .next v → P v) {n : Nat} (hs : P s)
    (h : M.run n s = .next t) : P t := by
  induction n generalizing s with
  | zero =>
    cases h
    exact hs
  | succ n ih =>
    obtain ⟨u, hu, hrun⟩ := exists_step_of_run M h
    exact ih (hstep s u hs hu) hrun

end Run

theorem run_keepsInv {n : Nat} {s t : State} (hs : Invariant s) (h : Sys2Proof.core.run n s = .next t) :
    Invariant t :=
  run_keeps Sys2Proof.core (fun _ v hu => step_keepsInv hu v) hs h

/-! ## What events leave outside the scratch -/

/-- The source after an event that it has answered (R62, R63). -/
def Source.after (src : Source) : Event → Source
  | .seek o _ => { src with pos := o, plan := src.plan.tail }
  | .read _ (.bytes b) => { src with pos := src.pos + b.length, plan := src.plan.tail }
  | .read _ .ioErr => { src with plan := src.plan.tail }
  | .release => src
  | .surfSet _ _ _ => src

/-- The surface after an event (R68, R278). -/
def Surface.after (surf : Surface) : Event → Surface
  | .surfSet x y c => ⟨surfaceWrite surf.cells ⟨x, y, c⟩, surf.plan.tail⟩
  | .seek _ _ => surf
  | .read _ _ => surf
  | .release => surf

/-- `s` after a step of the block that issues this event, its scratch left out. -/
def State.afterEvent (s : State) (e : Event) : State :=
  { s.tick with src := s.src.after e, surf := s.surf.after e, trace := s.trace ++ [e] }

/-- `s` after steps of the block that issue these events, one each, its scratch left out. -/
def State.afterEvents (s : State) (ev : List Event) : State :=
  { s with
    src := ev.foldl Source.after s.src
    surf := ev.foldl Surface.after s.surf
    trace := s.trace ++ ev
    sched := s.sched.drop ev.length
    ticks := s.ticks + ev.length }

/-- `s` with this scratch. -/
def State.withScratch (s : State) (c : Sequencer × Palette × Memory) : State :=
  { s with st := c.1, pal := c.2.1, rowBuf := c.2.2 }

section After

variable (s : State) (ev ev' : List Event)

theorem State.afterEvents_nil : s.afterEvents [] = s := by
  simp [State.afterEvents]

theorem State.afterEvents_singleton (e : Event) : s.afterEvents [e] = s.afterEvent e := by
  simp [State.afterEvents, State.afterEvent, State.tick]

theorem State.afterEvents_append : (s.afterEvents ev).afterEvents ev' = s.afterEvents (ev ++ ev') := by
  simp [State.afterEvents, Nat.add_assoc]

theorem Surface.after_cells (surf : Surface) :
    (ev.foldl Surface.after surf).cells = surfaceAfter surf.cells ev := by
  induction ev generalizing surf with
  | nil => rfl
  | cons e ev ih =>
    rw [List.foldl_cons, ih]
    cases e <;> rfl

theorem Source.after_bytes (src : Source) : (ev.foldl Source.after src).bytes = src.bytes := by
  induction ev generalizing src with
  | nil => rfl
  | cons e ev ih =>
    rw [List.foldl_cons, ih]
    match e with
    | .seek _ _ | .read _ (.bytes _) | .read _ .ioErr | .release | .surfSet _ _ _ => rfl

/-! ## Cooperation -/

theorem Source.after_plan (src : Source) (e : Event) :
    (src.after e).plan = src.plan ∨ (src.after e).plan = src.plan.tail := by
  match e with
  | .seek _ _ | .read _ (.bytes _) | .read _ .ioErr => exact .inr rfl
  | .release | .surfSet _ _ _ => exact .inl rfl

theorem Surface.after_plan (surf : Surface) (e : Event) :
    (surf.after e).plan = surf.plan ∨ (surf.after e).plan = surf.plan.tail := by
  cases e with
  | surfSet x y c => exact .inr rfl
  | seek | read | release => exact .inl rfl

section Replicate

variable {α : Type} {l l' : List α} {a : α} {m n : Nat}

theorem take_eq_replicate_of_add (h : l.take (m + n) = List.replicate (m + n) a) :
    l.take m = List.replicate m a := by
  have htake := congrArg (List.take m) h
  simpa [List.take_take] using htake

/-- A list that starts with `n + 1` times `a` starts with `n` times `a`, with its head and without it. -/
theorem take_eq_replicate_of_succ (h : l.take (n + 1) = List.replicate (n + 1) a) (hl : l' = l ∨ l' = l.tail) :
    l'.take n = List.replicate n a := by
  obtain rfl | rfl := hl
  · exact take_eq_replicate_of_add h
  · have htail := congrArg (List.drop 1) h
    simpa [List.drop_take] using htail

theorem exists_cons_of_take_eq_replicate (h : l.take (n + 1) = List.replicate (n + 1) a) : ∃ l', l = a :: l' := by
  cases l with
  | nil => exact nomatch h
  | cons b l' => exact ⟨l', congrArg (· :: l') (List.cons.inj h).1⟩

end Replicate

variable {s ev ev'} {n : Nat}

/-- A step less to come: the schedule moves on, and each plan moves on or stays. -/
theorem State.Cooperates.of_succ {t : State} (h : s.Cooperates (n + 1)) (hsched : t.sched = s.sched.tail)
    (hsrc : t.src.plan = s.src.plan ∨ t.src.plan = s.src.plan.tail)
    (hsurf : t.surf.plan = s.surf.plan ∨ t.surf.plan = s.surf.plan.tail) : t.Cooperates n :=
  ⟨take_eq_replicate_of_succ h.1 (.inr hsched), take_eq_replicate_of_succ h.2.1 hsrc,
    take_eq_replicate_of_succ h.2.2 hsurf⟩

theorem State.Cooperates.afterEvents (h : s.Cooperates (ev.length + n)) : (s.afterEvents ev).Cooperates n := by
  induction ev generalizing s with
  | nil => simpa [State.afterEvents_nil] using h
  | cons e ev ih =>
    rw [List.length_cons, Nat.add_right_comm] at h
    have hone : (s.afterEvents [e]).Cooperates (ev.length + n) := by
      rw [State.afterEvents_singleton]
      exact h.of_succ rfl (s.src.after_plan e) (s.surf.after_plan e)
    have hrest := ih hone
    rwa [State.afterEvents_append] at hrest

theorem State.Cooperates.of_add {m : Nat} (h : s.Cooperates (m + n)) : s.Cooperates m :=
  ⟨take_eq_replicate_of_add h.1, take_eq_replicate_of_add h.2.1, take_eq_replicate_of_add h.2.2⟩

theorem State.Cooperates.of_append (h : s.Cooperates ((ev ++ ev').length + n)) : s.Cooperates ev.length := by
  rw [List.length_append, Nat.add_assoc] at h
  exact h.of_add

/-- The block moves, and both ports answer. -/
theorem State.Cooperates.head (h : s.Cooperates (n + 1)) :
    s.turn = .block ∧ s.tick.srcDraw = .reference ∧ s.tick.surfDraw = .accepts := by
  obtain ⟨sched, hsched⟩ := exists_cons_of_take_eq_replicate h.1
  obtain ⟨srcPlan, hsrc⟩ := exists_cons_of_take_eq_replicate h.2.1
  obtain ⟨surfPlan, hsurf⟩ := exists_cons_of_take_eq_replicate h.2.2
  simp [State.turn, State.srcDraw, State.surfDraw, hsched, hsrc, hsurf]

end After

/-! ## Runs of events -/

section Issues

variable {s : State} {ev ev' : List Event} {c d : Sequencer × Palette × Memory}

/-- With the block alone moving and both ports cooperating, `s` issues `ev`, one event a step, and then holds `c` in its
scratch. -/
def State.Issues (s : State) (ev : List Event) (c : Sequencer × Palette × Memory) : Prop :=
  s.Cooperates ev.length → Sys2Proof.core.run ev.length s = .next ((s.afterEvents ev).withScratch c)

/-- `s` issues `ev` so, and then its command ends with this outcome (R17). -/
def State.Ends (s : State) (ev : List Event) (o : CmdOutcome) : Prop :=
  s.Cooperates ev.length → ∃ c, Sys2Proof.core.run ev.length s = .next ((s.afterEvents ev).withScratch c) ∧
    c.1.op = s.st.op ∧ c.1.step = .release ∧ c.1.outcome = o

/-- A step of the block that issues one event. -/
theorem State.issues_one {e : Event}
    (h : s.tick.srcDraw = .reference → s.tick.surfDraw = .accepts →
      blockStep s.tick = .next ((s.afterEvent e).withScratch c)) : s.Issues [e] c := by
  intro hcoop
  obtain ⟨hturn, hsrc, hsurf⟩ := State.Cooperates.head (n := 0) hcoop
  rw [State.afterEvents_singleton]
  exact run_succ Sys2Proof.core ((step_block hturn).trans (h hsrc hsurf)) 0

theorem State.Issues.append (h : s.Issues ev c) (h' : ((s.afterEvents ev).withScratch c).Issues ev' d) :
    s.Issues (ev ++ ev') d := by
  intro hcoop
  rw [List.length_append] at hcoop ⊢
  rw [run_add _ (h hcoop.of_add), ← State.afterEvents_append]
  exact h' hcoop.afterEvents

/-- The state between the two runs meets the invariant. -/
theorem State.Issues.append_of_inv (hs : Invariant s) (h : s.Issues ev c)
    (h' : Invariant ((s.afterEvents ev).withScratch c) → ((s.afterEvents ev).withScratch c).Issues ev' d) :
    s.Issues (ev ++ ev') d := by
  intro hcoop
  have hmid : s.Cooperates ev.length := by
    rw [List.length_append] at hcoop
    exact hcoop.of_add
  exact h.append (h' (run_keepsInv hs (h hmid))) hcoop

theorem State.Issues.ends {o : CmdOutcome} (h : s.Issues ev c) (hop : c.1.op = s.st.op) (hstep : c.1.step = .release)
    (ho : c.1.outcome = o) : s.Ends ev o :=
  fun hcoop => ⟨c, h hcoop, hop, hstep, ho⟩

/-- A command that has ended issues nothing before its RELEASE. -/
theorem State.ends_nil (hstep : s.st.step = .release) : s.Ends [] s.st.outcome := by
  refine fun _ => ⟨(s.st, s.pal, s.rowBuf), ?_, rfl, hstep, rfl⟩
  rw [State.afterEvents_nil]
  rfl

/-- A run of events, and then the end of the command from the state it leads to, which meets the invariant. -/
theorem State.Issues.append_ends {o : CmdOutcome} (hs : Invariant s) (h : s.Issues ev c) (hop : c.1.op = s.st.op)
    (h' : Invariant ((s.afterEvents ev).withScratch c) → ((s.afterEvents ev).withScratch c).Ends ev' o) :
    s.Ends (ev ++ ev') o := by
  intro hcoop
  rw [List.length_append] at hcoop ⊢
  have hrun := h hcoop.of_add
  obtain ⟨d, hrest, hop', hstep, ho⟩ := h' (run_keepsInv hs hrun) hcoop.afterEvents
  rw [run_add _ hrun, ← State.afterEvents_append]
  exact ⟨d, hrest, hop'.trans hop, hstep, ho⟩

end Issues

end Sys2Proof.Machine

end

section
/-! The events of a running command on cooperating ports, one by one, and its end. -/

namespace Sys2Proof.Machine

open Sys2Proof

variable {s : State}

/-! ## The answers of the reference file model -/

theorem answersSeek_of_reference (h : s.srcDraw = .reference) : s.AnswersSeek := by
  simp [State.AnswersSeek, h]

theorem answersRead_of_reference (h : s.srcDraw = .reference) (n : Nat) :
    s.AnswersRead n (fileRead s.src.bytes s.src.pos n) :=
  ⟨fileRead_length_le .., .inl ⟨h, rfl⟩⟩

/-! ## One event -/

section Events

variable (hop : s.st.op ≠ .none)

include hop

/-- A step of the block at a place of the sequencer, from what that step does. -/
theorem State.issues_at {q : SeqStep} (hstep : s.st.step = q) {e : Event} {c : Sequencer × Palette × Memory}
    (h : s.tick.srcDraw = .reference → s.tick.surfDraw = .accepts →
      q.run s.tick = .next ((s.afterEvent e).withScratch c)) : s.Issues [e] c :=
  State.issues_one fun hsrc hsurf => (blockStep_at (s := s.tick) hop hstep).trans (h hsrc hsurf)

theorem seekFH_issues (hstep : s.st.step = .seekFH) :
    s.Issues [.seek 0 .ok] ({ s.st with step := .readFH }, s.pal, s.rowBuf) :=
  State.issues_at hop hstep fun hsrc _ => stepSeekFH_answered (answersSeek_of_reference hsrc)

theorem readFH_issues (hstep : s.st.step = .readFH) :
    s.Issues [.read 14 (.bytes (fileRead s.src.bytes s.src.pos 14))]
      (s.st.fileHeaderRead s.params (fileRead s.src.bytes s.src.pos 14), s.pal, s.rowBuf) :=
  State.issues_at hop hstep fun hsrc _ => stepReadFH_answered (answersRead_of_reference hsrc _) rfl

section InfoHeader

variable {ih : List Byte} (hih : ih = fileRead s.src.bytes s.src.pos 40)

include hih

theorem readIH_issues_short (hstep : s.st.step = .readIH) (hlen : ih.length < 40) :
    s.Issues [.read 40 (.bytes ih)] (s.st.ended (.unsupported .shortHeader), s.pal, s.rowBuf) := by
  subst hih
  exact State.issues_at hop hstep fun hsrc _ => stepReadIH_short (answersRead_of_reference hsrc _) hlen

theorem readIH_issues (hstep : s.st.step = .readIH) (hlen : 40 ≤ ih.length) :
    s.Issues [.read 40 (.bytes ih)]
      ((s.latchInfoHeader ih).st.validated s.params s.regs, s.pal, s.rowBuf) := by
  subst hih
  exact State.issues_one fun hsrc _ => blockStep_readIH_whole (s := s.tick) hop hstep
    (answersRead_of_reference hsrc _) ((fileRead_length_le ..).antisymm hlen) rfl

end InfoHeader

theorem seekPal_issues (hstep : s.st.step = .seekPal) :
    s.Issues [.seek 54 .ok] ({ s.st with step := .readPal }, s.pal, s.rowBuf) :=
  State.issues_at hop hstep fun hsrc _ => stepSeekPal_answered (answersSeek_of_reference hsrc)

section Palette

variable {pb : List Byte} (hpb : pb = fileRead s.src.bytes s.src.pos (4 * paletteCount s.st.clrUsed))

include hpb

theorem readPal_issues_short (hstep : s.st.step = .readPal) (hlen : pb.length < 4 * paletteCount s.st.clrUsed) :
    s.Issues [.read (4 * paletteCount s.st.clrUsed) (.bytes pb)]
      (s.st.ended (.format .truncatedPalette), s.pal, s.rowBuf) := by
  subst hpb
  exact State.issues_at hop hstep fun hsrc _ => stepReadPal_short (answersRead_of_reference hsrc _) hlen

theorem readPal_issues (hstep : s.st.step = .readPal) (hlen : 4 * paletteCount s.st.clrUsed ≤ pb.length) :
    s.Issues [.read (4 * paletteCount s.st.clrUsed) (.bytes pb)]
      ({ s.st with palLen := paletteCount s.st.clrUsed }.entered s.regs,
        buildPalette s.pal (paletteCount s.st.clrUsed) pb, s.rowBuf) := by
  subst hpb
  exact State.issues_at hop hstep fun hsrc _ => stepReadPal_whole (answersRead_of_reference hsrc _)
    ((fileRead_length_le ..).antisymm hlen) rfl

end Palette

theorem rowSeek_issues (hstep : s.st.step = .rowSeek) :
    s.Issues [.seek (rowOffset s.st.pixOff s.st.height s.st.rowStride s.st.row) .ok]
      ({ s.st with step := .rowRead }, s.pal, s.rowBuf) :=
  State.issues_at hop hstep fun hsrc _ => stepRowSeek_answered (answersSeek_of_reference hsrc)

section Row

variable {rb : List Byte} (hrb : rb = fileRead s.src.bytes s.src.pos s.st.rowStride)

include hrb

theorem rowRead_issues_short (hstep : s.st.step = .rowRead) (hlen : rb.length < s.st.rowStride) :
    s.Issues [.read s.st.rowStride (.bytes rb)] (s.st.ended (.format .truncatedRow), s.pal, s.rowBuf) := by
  subst hrb
  exact State.issues_at hop hstep fun hsrc _ => stepRowRead_short (answersRead_of_reference hsrc _) hlen

theorem rowRead_issues (hstep : s.st.step = .rowRead) (hlen : s.st.rowStride ≤ rb.length)
    (hfits : s.st.rowStride ≤ s.params.rowBufMax) :
    s.Issues [.read s.st.rowStride (.bytes rb)]
      ({ s.st with col := 0 }.afterRowStored, s.pal, s.rowBuf.writeBytes 0 rb) := by
  subst hrb
  exact State.issues_at hop hstep fun hsrc _ => stepRowRead_whole (answersRead_of_reference hsrc _)
    ((fileRead_length_le ..).antisymm hlen) hfits

end Row

theorem pixel_issues (hstep : s.st.step = .pixel) (hrows : s.st.InRows s.params) (hcol : (s.st.col : Int) < s.st.loadW) :
    s.Issues [.surfSet (s.st.dx.toInt + s.st.col) (s.st.dy.toInt + s.st.row) s.pixelColor]
      (s.st.afterPixel, s.pal, s.rowBuf) :=
  State.issues_at hop hstep fun _ hsurf => stepPixel_accepts (s := s.tick) hrows hcol hsurf

theorem release_issues (hstep : s.st.step = .release) :
    s.Issues [.release] ({ s.st with step := .complete }, s.pal, s.rowBuf) :=
  State.issues_at hop hstep fun _ _ => rfl

end Events

/-! ## RELEASE and completion -/

theorem run_complete (hop : s.st.op ≠ .none) (hstep : s.st.step = .complete) (hcoop : s.Cooperates 1) :
    Sys2Proof.core.run 1 s = .next s.tick.completeCommand := by
  obtain ⟨hturn, -, -⟩ := State.Cooperates.head (n := 0) hcoop
  exact run_succ Sys2Proof.core ((step_block hturn).trans (blockStep_at (s := s.tick) hop hstep)) 0

/-- RELEASE and the completion step (R231, R232). -/
theorem run_release_complete (hop : s.st.op ≠ .none) (hstep : s.st.step = .release) (hcoop : s.Cooperates 2) :
    Sys2Proof.core.run 2 s = .next
      ((s.afterEvents [.release]).withScratch ({ s.st with step := .complete }, s.pal, s.rowBuf)).tick.completeCommand :=
  (run_add Sys2Proof.core (release_issues hop hstep (hcoop.of_add (n := 1))) 1).trans
    (run_complete (s := (s.afterEvents [.release]).withScratch ({ s.st with step := .complete }, s.pal, s.rowBuf)) hop rfl
      (State.Cooperates.afterEvents (ev := [.release]) hcoop))

/-- The end of a command that has issued `ev`: RELEASE and the completion step (R231, R232). -/
theorem run_completes {ev : List Event} {c : Sequencer × Palette × Memory}
    (hrun : Sys2Proof.core.run ev.length s = .next ((s.afterEvents ev).withScratch c)) (hop : c.1.op ≠ .none)
    (hstep : c.1.step = .release) (hcoop : s.Cooperates ((ev ++ [Event.release]).length + 1)) :
    Sys2Proof.core.run ((ev ++ [Event.release]).length + 1) s = .next
      ((s.afterEvents (ev ++ [.release])).withScratch
        ({ c.1 with step := .complete }, c.2)).tick.completeCommand := by
  rw [List.length_append, Nat.add_assoc] at hcoop ⊢
  rw [run_add Sys2Proof.core hrun, ← State.afterEvents_append]
  exact run_release_complete hop hstep hcoop.afterEvents

end Sys2Proof.Machine

end

section
/-! INSPECT and DECODE follow their pseudocode (R171, R186): the header, the row loop, the transfer, and the whole
command. -/

namespace Sys2Proof.Machine

open Sys2Proof

variable {s : State}

/-! ## The header -/

/-- ST with a header latched (R164, R167), before its validation. -/
def Sequencer.withHeader (st : Sequencer) (h : ImageHeader) : Sequencer :=
  { st with
    step := .readIH, fileSize := h.fileSize, pixOff := h.pixOff, width := h.width, height := h.height
    planes := h.planes, bpp := h.bpp, comp := h.comp, clrUsed := h.clrUsed }

/-- After the file header the source is at the info header: READ_IH needs no SEEK (R165). -/
theorem fileRead_after_fileHeader {src : Source} (hfh : 14 ≤ (fileRead src.bytes 0 14).length) (n : Nat) :
    fileRead src.bytes 14 n = fileRead src.bytes ((fileHeaderEvents src.bytes).foldl Source.after src).pos n := by
  have hpos : ((fileHeaderEvents src.bytes).foldl Source.after src).pos = 0 + (fileRead src.bytes 0 14).length := rfl
  rw [hpos, Nat.zero_add, (fileRead_length_le ..).antisymm hfh]

section Header

variable (hop : s.st.op ≠ .none) (hstep : s.st.step = .seekFH)

include hop hstep

theorem fileHeader_issues :
    s.Issues (fileHeaderEvents s.src.bytes)
      ({ s.st with step := .readFH }.fileHeaderRead s.params (fileRead s.src.bytes 0 14), s.pal, s.rowBuf) :=
  (seekFH_issues hop hstep).append (readFH_issues hop rfl)

section Whole

variable (hsig : signatureMatches s.params (fileRead s.src.bytes 0 14) = true)
  (hfh : 14 ≤ (fileRead s.src.bytes 0 14).length)

include hsig hfh

theorem fileHeader_issues_whole :
    s.Issues (fileHeaderEvents s.src.bytes)
      (s.st.withFileHeader (fileRead s.src.bytes 0 14), s.pal, s.rowBuf) := by
  have h := fileHeader_issues hop hstep
  rwa [Sequencer.fileHeaderRead_whole hsig hfh] at h

theorem infoHeader_issues_short (hih : (fileRead s.src.bytes 14 40).length < 40) :
    s.Issues (headerEvents s.src.bytes)
      ((s.st.withFileHeader (fileRead s.src.bytes 0 14)).ended (.unsupported .shortHeader), s.pal, s.rowBuf) :=
  (fileHeader_issues_whole hop hstep hsig hfh).append
    (readIH_issues_short (by exact hop) (fileRead_after_fileHeader hfh 40) rfl hih)

theorem infoHeader_issues (hih : 40 ≤ (fileRead s.src.bytes 14 40).length) :
    s.Issues (headerEvents s.src.bytes)
      ((s.st.withHeader (fileHeader s.params s.src.bytes)).validated s.params s.regs, s.pal, s.rowBuf) :=
  (fileHeader_issues_whole hop hstep hsig hfh).append
    (readIH_issues (by exact hop) (fileRead_after_fileHeader hfh 40) rfl hih)

end Whole

/-- A header that fails ends the command (R162 to R168). -/
theorem header_issues_failed {ev : List Event} {o : CmdOutcome}
    (h : HeaderRun s.params s.src.bytes ev (.error o)) :
    ∃ st, s.Issues ev (st, s.pal, s.rowBuf) ∧ st.op = s.st.op ∧ st.step = .release ∧ st.outcome = o := by
  cases h with
  | badSignature hsig =>
    have h := fileHeader_issues hop hstep
    rw [Sequencer.fileHeaderRead_badSignature hsig] at h
    exact ⟨_, h, rfl, rfl, rfl⟩
  | shortFileHeader hsig hfh =>
    have h := fileHeader_issues hop hstep
    rw [Sequencer.fileHeaderRead_short hsig hfh] at h
    exact ⟨_, h, rfl, rfl, rfl⟩
  | shortInfoHeader hsig hfh hih => exact ⟨_, infoHeader_issues_short hop hstep hsig hfh hih, rfl, rfl, rfl⟩
  | invalid hsig hfh hih hk =>
    have h := infoHeader_issues hop hstep hsig hfh hih
    rw [Sequencer.validated_failed hk] at h
    exact ⟨_, h, rfl, rfl, rfl⟩

/-- A header that passes is latched, and the command goes on from its validation (R170, R172). -/
theorem header_issues_passed {ev : List Event} {hd : ImageHeader}
    (h : HeaderRun s.params s.src.bytes ev (.ok hd)) :
    s.Issues ev ((s.st.withHeader hd).validated s.params s.regs, s.pal, s.rowBuf) ∧
      validateFormat hd.bpp hd.comp hd.planes = none := by
  cases h with
  | passed hsig hfh hih hnone => exact ⟨infoHeader_issues hop hstep hsig hfh hih, hnone⟩

end Header

/-- The header's events write no pixel (R170). -/
theorem HeaderRun.surfaceAfter {p : Params} {S : List Byte} {ev : List Event} {r : Except CmdOutcome ImageHeader}
    (h : HeaderRun p S ev r) (cells : List SurfCell) : surfaceAfter cells (ev ++ [.release]) = cells := by
  cases h <;> rfl

/-! ## INSPECT -/

theorem inspectPalColors_eq (bpp : BitVec 16) (clrUsed : Word) :
    inspectPalColors bpp clrUsed = if bpp = 8 then (if 0 < clrUsed.toNat then clrUsed else 256) else 0 := by
  unfold inspectPalColors paletteCount
  refine ite_congr rfl (fun _ => ?_) fun _ => rfl
  split
  · exact BitVec.eq_of_toNat_eq (by simp)
  · rfl

/-- A failure of the header is no success. -/
theorem HeaderRun.ne_ok {p : Params} {S : List Byte} {ev : List Event} {o : CmdOutcome}
    (h : HeaderRun p S ev (.error o)) : o ≠ .ok := by
  cases h <;> nofun

/-- The latches that the completion of an INSPECT reports, by what its pseudocode ends in (R35, R170). -/
def Sequencer.Reports (st : Sequencer) : Except CmdOutcome ImageHeader → Prop
  | .error o => st.outcome = o ∧ o ≠ .ok
  | .ok h => st.outcome = .ok ∧ st.width = h.width ∧ st.height = h.height ∧ st.bpp = h.bpp ∧
    st.fileSize = h.fileSize ∧ st.clrUsed = h.clrUsed

/-- The completion of a command that writes STATUS alone (R231). -/
theorem completedRegs_statusOnly (h : ¬(s.st.op = .inspect ∧ s.st.outcome = .ok)) :
    s.completedRegs = { s.regs with status := Status.completed s.st.outcome } := if_neg h

/-- The completion of an INSPECT, STATUS while it ran being of no account (R170, R231). -/
theorem completedRegs_inspect (hop : s.st.op = .inspect) {o : Except CmdOutcome ImageHeader} (h : s.st.Reports o)
    {r : Regs} {busy : Status} (hr : s.regs = { r with status := busy }) : s.completedRegs = inspectRegs r o := by
  cases o with
  | error o =>
    obtain ⟨rfl, hne⟩ := h
    rw [completedRegs_statusOnly fun hok => hne hok.2, hr]
    rfl
  | ok hd =>
    obtain ⟨hok, hw, hh, hbpp, hsize, hused⟩ := h
    simp only [State.completedRegs, hop, hok, and_self, if_true, Regs.withInfo, inspectRegs, hw, hh, hbpp, hsize, hused,
      inspectPalColors_eq, hr]

/-- INSPECT from SEEK_FH to its RELEASE (R171). -/
theorem inspect_issues (hop : s.st.op = .inspect) (hstep : s.st.step = .seekFH) {ev : List Event}
    {o : Except CmdOutcome ImageHeader} (h : HeaderRun s.params s.src.bytes ev o) :
    ∃ st, s.Issues ev (st, s.pal, s.rowBuf) ∧ st.op = .inspect ∧ st.step = .release ∧ st.Reports o := by
  have hne : s.st.op ≠ .none := by simp [hop]
  cases o with
  | error o =>
    obtain ⟨st, hissues, hst, hrelease, ho⟩ := header_issues_failed hne hstep h
    exact ⟨st, hissues, hst.trans hop, hrelease, ho, h.ne_ok⟩
  | ok hd =>
    obtain ⟨hissues, hnone⟩ := header_issues_passed hne hstep h
    rw [Sequencer.validated_inspect (st := s.st.withHeader hd) hnone hop] at hissues
    exact ⟨_, hissues, hop, rfl, rfl, rfl, rfl, rfl, rfl, rfl⟩

/-! ## The whole command -/

/-- What every event leaves as it is, and what the completion of the command adds: the run's end, field by field. -/
theorem run_completes_surface (ev : List Event) (c : Sequencer × Palette × Memory) :
    ((s.afterEvents ev).withScratch c).tick.completeCommand.surf.cells = surfaceAfter s.surf.cells ev :=
  Surface.after_cells ev s.surf

end Sys2Proof.Machine

open Sys2Proof Sys2Proof.Machine

/-- Settles O52: the steps of INSPECT issue the header's events, and its completion reports what the header's program
ends in. -/
theorem inspectRunsItsPseudocode : Obligations.InspectRunsItsPseudocode := by
  unfold Obligations.InspectRunsItsPseudocode
  intro s ev o hidle hprog hcoop
  have hheader := headerProgram_run s.params s.src.bytes
  obtain ⟨rfl, rfl⟩ := Prod.mk.inj hprog
  obtain ⟨st, hissues, hop, hstep, hreports⟩ := inspect_issues (s := s.issue .inspect) rfl rfl hheader
  refine ⟨_, _, exec_inspect_idle hidle, run_completes (hissues hcoop.of_append) (by simp [hop]) hstep hcoop, rfl,
    completedRegs_inspect hop hreports rfl, rfl, ?_, rfl, rfl, rfl, rfl⟩
  exact (run_completes_surface ..).trans (hheader.surfaceAfter _)

end

section
/-! DECODE follows its pseudocode (R186): the pixels of a row, a row, the row loop, the transfer, and the whole
command. -/

namespace Sys2Proof.Machine

open Sys2Proof

variable {s : State}

/-! ## The pixels of a row -/

/-- The row loop's constants as ST holds them (R173, R178). -/
def State.rowJob (s : State) : RowJob where
  pixOff := s.st.pixOff
  height := s.st.height
  rowStride := s.st.rowStride
  loadW := s.st.loadW.toNat
  dx := s.st.dx.toInt
  dy := s.st.dy.toInt

/-- The colour of a column of a row with these bytes (R181, R182). -/
def State.columnColor (s : State) (rb : List Byte) (col : Nat) : Color16 :=
  if s.st.bpp = 8 then indexedColor s (byteAt rb col) else trueColorPixel rb col

/-- The bytes of a column lie in its row (R173, R178). -/
theorem Sequencer.InRows.column_le (hrows : s.st.InRows s.params) (hcol : (s.st.col : Int) < s.st.loadW) :
    (s.st.col + 1) * s.st.bpg ≤ s.st.rowStride := by
  have hcolumns : ((s.st.col : Int) + 1) * s.st.bpg ≤ s.st.rowStride :=
    (mul_le_mul_of_nonneg_right hcol (by omega)).trans hrows.columns_le
  exact_mod_cast hcolumns

/-- The pixel at ST.col has the colour of that column of the row in ROWBUF. -/
theorem pixelColor_eq_columnColor (hrows : s.st.InRows s.params) (hcol : (s.st.col : Int) < s.st.loadW)
    {rb : List Byte} (hbuf : ∀ i, i < s.st.rowStride → s.rowBuf.read i = byteAt rb i) :
    s.pixelColor = s.columnColor rb s.st.col := by
  have hle := hrows.column_le hcol
  rw [hrows.bpg] at hle
  unfold State.columnColor
  obtain h8 | h24 := hrows.bpp
  · rw [State.pixelColor_of_8_bits h8, if_pos h8, hbuf]
    simp only [h8, bytesPerPixel, BitVec.reduceToNat] at hle
    omega
  · simp only [h24, bytesPerPixel, BitVec.reduceToNat] at hle
    rw [State.pixelColor_of_24_bits h24, if_neg (by simp [h24]), hbuf _ (by omega), hbuf _ (by omega), hbuf _ (by omega)]
    rfl

theorem column_issues (hinv : Invariant s) (hop : s.st.op ≠ .none) (hstep : s.st.step = .pixel) {rb : List Byte}
    (hbuf : ∀ i, i < s.st.rowStride → s.rowBuf.read i = byteAt rb i) :
    s.Issues [.surfSet (s.st.dx.toInt + s.st.col) (s.st.dy.toInt + s.st.row) (s.columnColor rb s.st.col)]
      (s.st.afterPixel, s.pal, s.rowBuf) := by
  obtain ⟨hrows, hcol⟩ := hinv.pixel hop hstep
  rw [← pixelColor_eq_columnColor hrows hcol hbuf]
  exact pixel_issues hop hstep hrows hcol

/-- The columns from ST.col to the last one of the row, `k` of them after the first (R181 to R183). -/
theorem columns_issue {k last : Nat} (hinv : Invariant s) (hop : s.st.op ≠ .none) (hstep : s.st.step = .pixel)
    (hlast : s.st.col + k = last) (hwidth : s.st.loadW = last + 1) {rb : List Byte}
    (hbuf : ∀ i, i < s.st.rowStride → s.rowBuf.read i = byteAt rb i) :
    s.Issues ((List.range' s.st.col (k + 1)).map fun (col : Nat) =>
        .surfSet (s.st.dx.toInt + (col : Int)) (s.st.dy.toInt + (s.st.row : Int)) (s.columnColor rb col))
      ({ s.st with col := last }.afterRow, s.pal, s.rowBuf) := by
  have hpixel := column_issues hinv hop hstep hbuf
  induction k generalizing s with
  | zero =>
    subst hlast
    rw [Sequencer.afterPixel, if_neg (by omega)] at hpixel
    exact hpixel
  | succ k ih =>
    rw [Sequencer.afterPixel, if_pos (by omega)] at hpixel
    rw [List.range'_succ, List.map_cons, ← List.singleton_append]
    refine hpixel.append_of_inv hinv fun hinv' => ?_
    have hlast' : s.st.col + 1 + k = last := by omega
    exact ih hinv' hop hstep hlast' hwidth hbuf (column_issues hinv' hop hstep hbuf)

/-! ## A row -/

theorem Sequencer.afterRow_withStep (st : Sequencer) (q : SeqStep) : { st with step := q }.afterRow = st.afterRow := by
  unfold Sequencer.afterRow
  split <;> rfl

/-- ST after a whole row is stored (R180). -/
def Sequencer.rowStored (st : Sequencer) : Sequencer := { st with col := 0, step := .rowRead }.afterRowStored

theorem Sequencer.rowStored_columns {st : Sequencer} (h : 0 < st.loadW) :
    st.rowStored = { st with col := 0, step := .pixel } := if_pos h

theorem Sequencer.rowStored_empty {st : Sequencer} (h : st.loadW ≤ 0) : st.rowStored = { st with col := 0 }.afterRow :=
  (if_neg (Int.not_lt.2 h)).trans ({ st with col := 0 }.afterRow_withStep .rowRead)

section WholeRow

variable (hinv : Invariant s) (hop : s.st.op ≠ .none) (hstep : s.st.step = .rowSeek) {rb : List Byte}
  (hrb : rb = s.rowJob.rowBytes s.src.bytes s.st.row) (hlen : s.st.rowStride ≤ rb.length)

include hinv hop hstep hrb hlen

theorem rowRequests_issue {st : Sequencer} (hst : s.st.rowStored = st) :
    s.Issues (s.rowJob.requests s.src.bytes s.st.row) (st, s.pal, s.rowBuf.writeBytes 0 rb) := by
  subst hrb hst
  exact (rowSeek_issues hop hstep).append
    (rowRead_issues (by exact hop) rfl rfl hlen (hinv.rowSeek hop hstep).fits)

theorem row_issues_columns {k : Nat} (hk : s.st.loadW = k + 1) :
    s.Issues (s.rowJob.rowEvents s.src.bytes s.columnColor s.st.row)
      ({ s.st with col := k }.afterRow, s.pal, s.rowBuf.writeBytes 0 rb) := by
  have hrequests := rowRequests_issue hinv hop hstep hrb hlen (Sequencer.rowStored_columns (by omega))
  have hwidth : s.rowJob.loadW = k + 1 := by simp [State.rowJob, hk]
  rw [RowJob.rowEvents, rowPixels, ← hrb, hwidth, List.range_eq_range']
  refine hrequests.append_of_inv hinv fun hinv' => ?_
  have hbuf (i : Nat) (hi : i < s.st.rowStride) : (s.rowBuf.writeBytes 0 rb).read i = byteAt rb i := by
    rw [Memory.read_writeBytes hinv.rowBuf, if_pos (by omega), Nat.sub_zero]
  rw [← Sequencer.afterRow_withStep { s.st with col := k } .pixel]
  exact columns_issue hinv' hop rfl (Nat.zero_add k) hk hbuf

theorem row_issues_empty (hcol : s.st.loadW ≤ 0) :
    s.Issues (s.rowJob.rowEvents s.src.bytes s.columnColor s.st.row)
      ({ s.st with col := 0 }.afterRow, s.pal, s.rowBuf.writeBytes 0 rb) := by
  have hwidth : s.rowJob.loadW = 0 := Int.toNat_eq_zero.2 hcol
  rw [RowJob.rowEvents, rowPixels, hwidth, List.range_zero, List.map_nil, List.append_nil]
  exact rowRequests_issue hinv hop hstep hrb hlen (Sequencer.rowStored_empty hcol)

/-- A whole row (R180 to R183), and the end of the row; what ST.col then holds no step reads. -/
theorem row_issues :
    ∃ col, s.Issues (s.rowJob.rowEvents s.src.bytes s.columnColor s.st.row)
      ({ s.st with col := col }.afterRow, s.pal, s.rowBuf.writeBytes 0 rb) := by
  by_cases hcol : s.st.loadW ≤ 0
  · exact ⟨0, row_issues_empty hinv hop hstep hrb hlen hcol⟩
  · exact ⟨s.st.loadW.toNat - 1, row_issues_columns hinv hop hstep hrb hlen (by omega)⟩

end WholeRow

theorem row_issues_truncated (hop : s.st.op ≠ .none) (hstep : s.st.step = .rowSeek)
    (hlen : (s.rowJob.rowBytes s.src.bytes s.st.row).length < s.st.rowStride) :
    s.Issues (s.rowJob.requests s.src.bytes s.st.row) (s.st.ended (.format .truncatedRow), s.pal, s.rowBuf) :=
  (rowSeek_issues hop hstep).append (rowRead_issues_short (by exact hop) rfl rfl hlen)

/-! ## The row loop -/

@[simp] theorem Sequencer.afterRow_op (st : Sequencer) : st.afterRow.op = st.op := by
  unfold Sequencer.afterRow
  split <;> rfl

theorem Sequencer.afterRow_next {st : Sequencer} (h : (st.row : Int) + 1 < st.loadH) :
    st.afterRow = { st with row := st.row + 1, step := .rowSeek } := if_pos h

theorem Sequencer.afterRow_last {st : Sequencer} (h : st.loadH ≤ (st.row : Int) + 1) : st.afterRow = st.ended .ok :=
  if_neg (Int.not_lt.2 h)

theorem columnColor_congr {t : State} (hbpp : t.st.bpp = s.st.bpp) (hpalLen : t.st.palLen = s.st.palLen)
    (hpal : t.pal = s.pal) : t.columnColor = s.columnColor := by
  funext rb col
  simp only [State.columnColor, indexedColor, hbpp, hpalLen, hpal]

section Loop

variable {S : List Byte} (hS : s.src.bytes = S) {j : RowJob} (hj : s.rowJob = j)
  {color : List Byte → Nat → Color16} (hcolor : s.columnColor = color) (hinv : Invariant s) (hop : s.st.op ≠ .none)
  (hstep : s.st.step = .rowSeek)

include hS hj hcolor hinv hop hstep

/-- One row of the loop: it is truncated, or the rest of the loop follows it. -/
theorem row_ends {left : Nat}
    (hrest : ∀ (col : Nat) (t : State), Invariant t → t.st = { s.st with col := col }.afterRow → t.pal = s.pal →
      t.src.bytes = S →
      t.Ends (rowsProgram S j color left (s.st.row + 1)).1 (rowsProgram S j color left (s.st.row + 1)).2) :
    s.Ends (rowsProgram S j color (left + 1) s.st.row).1 (rowsProgram S j color (left + 1) s.st.row).2 := by
  by_cases hlen : (j.rowBytes S s.st.row).length < j.rowStride
  · rw [rowsProgram_truncated hlen]
    subst hS hj
    exact (row_issues_truncated hop hstep hlen).ends rfl rfl rfl
  · rw [rowsProgram_whole hlen]
    subst hS hj hcolor
    obtain ⟨col, hrow⟩ := row_issues hinv hop hstep rfl (Nat.not_lt.1 hlen)
    exact hrow.append_ends hinv (by simp) fun hinv' => hrest col _ hinv' rfl rfl (Source.after_bytes ..)

/-- The row loop with `left` rows after the one at ST.row (R179 to R185). -/
theorem rows_end {left : Nat} (hleft : s.st.loadH = s.st.row + left + 1) :
    s.Ends (rowsProgram S j color (left + 1) s.st.row).1 (rowsProgram S j color (left + 1) s.st.row).2 := by
  induction left generalizing s with
  | zero =>
    refine row_ends hS hj hcolor hinv hop hstep fun col t _ hst _ _ => ?_
    rw [Sequencer.afterRow_last (by simp [hleft])] at hst
    have hend := t.ends_nil (by rw [hst]; rfl)
    rw [hst] at hend
    exact hend
  | succ left ih =>
    refine row_ends hS hj hcolor hinv hop hstep fun col t hinv' hst hpal hS' => ?_
    rw [Sequencer.afterRow_next (by simp [hleft])] at hst
    have hrow : t.st.row = s.st.row + 1 := by rw [hst]
    rw [← hrow]
    refine ih hS' ?_ ?_ hinv' (by rwa [hst]) (by rw [hst]) (by rw [hst]; simp [hleft]; omega)
    · rw [← hj, State.rowJob, hst]
      rfl
    · rw [← hcolor]
      exact columnColor_congr (by rw [hst]) (by rw [hst]) hpal

end Loop

/-- The row loop from its start (R178, R179): `n` rows, or none. -/
theorem entered_ends (hinv : Invariant s) (hop : s.st.op ≠ .none) {st : Sequencer} (hst : s.st = st.entered s.regs)
    {S : List Byte} (hS : s.src.bytes = S) {j : RowJob} (hj : s.rowJob = j) {color : List Byte → Nat → Color16}
    (hcolor : s.columnColor = color) :
    s.Ends (rowsProgram S j color (st.clipped s.regs).loadH.toNat 0).1
      (rowsProgram S j color (st.clipped s.regs).loadH.toNat 0).2 := by
  by_cases hempty : (st.clipped s.regs).loadH ≤ 0
  · rw [Sequencer.entered_empty hempty] at hst
    have hend := s.ends_nil (by rw [hst]; rfl)
    rw [hst] at hend
    rw [Int.toNat_eq_zero.2 hempty]
    exact hend
  · rw [Sequencer.entered_first (Int.not_le.1 hempty)] at hst
    obtain ⟨left, hleft⟩ : ∃ left : Nat, (st.clipped s.regs).loadH = left + 1 :=
      ⟨(st.clipped s.regs).loadH.toNat - 1, by omega⟩
    have hrow : s.st.row = 0 := by rw [hst]; rfl
    have hend := rows_end hS hj hcolor hinv hop (by rw [hst]) (left := left) (by rw [hrow, hst]; simp [hleft])
    rw [hrow] at hend
    rw [hleft]
    exact hend

/-! ## The palette -/

section Palette

variable (hop : s.st.op ≠ .none) (hstep : s.st.step = .seekPal) {h : ImageHeader} (hused : s.st.clrUsed = h.clrUsed)

include hop hstep hused

theorem palette_issues_short (hlen : (filePalette s.src.bytes h).length < 4 * paletteCount h.clrUsed) :
    s.Issues (paletteEvents s.src.bytes h) (s.st.ended (.format .truncatedPalette), s.pal, s.rowBuf) := by
  rw [paletteEvents]
  rw [filePalette, ← hused] at *
  exact (seekPal_issues hop hstep).append (readPal_issues_short (by exact hop) rfl rfl hlen)

theorem palette_issues (hlen : 4 * paletteCount h.clrUsed ≤ (filePalette s.src.bytes h).length) :
    s.Issues (paletteEvents s.src.bytes h)
      ({ s.st with palLen := paletteCount h.clrUsed }.entered s.regs,
        buildPalette s.pal (paletteCount h.clrUsed) (filePalette s.src.bytes h), s.rowBuf) := by
  rw [paletteEvents]
  rw [filePalette, ← hused] at *
  exact (seekPal_issues hop hstep).append (readPal_issues (by exact hop) rfl rfl hlen)

end Palette

/-- The palette built from these bytes gives the pseudocode's colours (R176, R181). -/
theorem columnColor_indexed {n : Nat} {pb : List Byte} {old : Palette} (h8 : s.st.bpp = 8) (hlen : s.st.palLen = n)
    (hpal : s.pal = buildPalette old n pb) : s.columnColor = indexedPixel n pb := by
  funext rb col
  rw [State.columnColor, if_pos h8, indexedColor, indexedPixel, hlen]
  refine ite_congr rfl (fun hidx => ?_) fun _ => rfl
  rw [hpal]
  exact buildPalette_getElem_built old pb (k := ⟨(byteAt rb col).toNat, (byteAt rb col).isLt⟩) hidx

theorem columnColor_trueColor (h8 : s.st.bpp ≠ 8) : s.columnColor = trueColorPixel := by
  funext rb col
  exact if_neg h8

/-! ## The transfer -/

theorem Sequencer.entered_eq (st : Sequencer) (r : Regs) :
    ∃ o q, st.entered r = { st.clipped r with outcome := o, step := q } := by
  by_cases h : (st.clipped r).loadH ≤ 0
  · exact ⟨_, _, Sequencer.entered_empty h⟩
  · exact ⟨_, _, Sequencer.entered_first (Int.not_le.1 h)⟩

section EnteredFields

variable (st : Sequencer) (r : Regs)

@[simp] theorem Sequencer.entered_op : (st.entered r).op = st.op := by
  obtain ⟨o, q, heq⟩ := st.entered_eq r
  rw [heq]
  rfl

@[simp] theorem Sequencer.entered_bpp : (st.entered r).bpp = st.bpp := by
  obtain ⟨o, q, heq⟩ := st.entered_eq r
  rw [heq]
  rfl

@[simp] theorem Sequencer.entered_palLen : (st.entered r).palLen = st.palLen := by
  obtain ⟨o, q, heq⟩ := st.entered_eq r
  rw [heq]
  rfl

end EnteredFields

/-- ST while DECODE transfers the image of a header: what the row loop needs of it (R160, R167, R173). -/
structure Sequencer.Holds (st : Sequencer) (r : Regs) (h : ImageHeader) : Prop where
  pixOff : st.pixOff = h.pixOff
  width : st.width = h.width
  height : st.height = h.height
  bpp : st.bpp = h.bpp
  clrUsed : st.clrUsed = h.clrUsed
  rowStride : st.rowStride = rowStrideOf h.width (bytesPerPixel h.bpp)
  dx : st.dx = r.destX
  dy : st.dy = r.destY

/-- The row loop of an image that is held, from its start. -/
theorem heldRows_end (hinv : Invariant s) (hop : s.st.op ≠ .none) {st : Sequencer} (hst : s.st = st.entered s.regs)
    {h : ImageHeader} (hheld : st.Holds s.regs h) {S : List Byte} (hS : s.src.bytes = S)
    {color : List Byte → Nat → Color16} (hcolor : s.columnColor = color) :
    s.Ends (rowsProgram S (headerJob s.regs h) color (headerRows s.regs h) 0).1
      (rowsProgram S (headerJob s.regs h) color (headerRows s.regs h) 0).2 := by
  have hrows : headerRows s.regs h = (st.clipped s.regs).loadH.toNat := by
    rw [headerRows, ← hheld.height]
    rfl
  have hjob : s.rowJob = headerJob s.regs h := by
    obtain ⟨o, q, heq⟩ := st.entered_eq s.regs
    rw [State.rowJob, hst, heq, headerJob, ← hheld.pixOff, ← hheld.height, ← hheld.rowStride, ← hheld.width, ← hheld.dx,
      ← hheld.dy]
    rfl
  rw [hrows]
  exact entered_ends hinv hop hst hS hjob hcolor

/-- The transfer of an indexed image, from SEEK_PAL on (R175 to R185). -/
theorem indexed_ends (hinv : Invariant s) (hop : s.st.op ≠ .none) (hstep : s.st.step = .seekPal) {h : ImageHeader}
    (hheld : s.st.Holds s.regs h) (h8 : h.bpp = 8) (hlen : 4 * paletteCount h.clrUsed ≤ (filePalette s.src.bytes h).length) :
    s.Ends
      (paletteEvents s.src.bytes h ++ (rowsProgram s.src.bytes (headerJob s.regs h)
        (indexedPixel (paletteCount h.clrUsed) (filePalette s.src.bytes h)) (headerRows s.regs h) 0).1)
      (rowsProgram s.src.bytes (headerJob s.regs h)
        (indexedPixel (paletteCount h.clrUsed) (filePalette s.src.bytes h)) (headerRows s.regs h) 0).2 := by
  refine (palette_issues hop hstep hheld.clrUsed hlen).append_ends hinv (by simp) fun hinv' => ?_
  refine heldRows_end hinv' (by simpa [State.withScratch] using hop) rfl { hheld with } (Source.after_bytes ..) ?_
  exact columnColor_indexed (by simp [State.withScratch, hheld.bpp, h8]) (by simp [State.withScratch]) rfl

/-- The transfer of a header that has passed its validation (R172 to R185). -/
theorem transfer_ends (hinv : Invariant s) {st : Sequencer} (hst : s.st = st.started s.params s.regs)
    (hop : s.st.op ≠ .none) {h : ImageHeader} (hheld : st.withStride.Holds s.regs h) {S : List Byte}
    (hS : s.src.bytes = S) : s.Ends (transferProgram s.params s.regs S h).1 (transferProgram s.params s.regs S h).2 := by
  subst hS
  have hended {st' : Sequencer} {o : CmdOutcome} (hst' : s.st = st'.ended o) : s.Ends [] o := by
    have hend := s.ends_nil (by rw [hst']; rfl)
    rwa [hst'] at hend
  have hw : st.width = h.width := hheld.width
  have hh : st.height = h.height := hheld.height
  have hbpp : st.bpp = h.bpp := hheld.bpp
  have hstride : st.withStride.rowStride = rowStrideOf h.width (bytesPerPixel h.bpp) := hheld.rowStride
  by_cases hdim : h.width.toInt < 0 ∨ h.height.toInt < 0
  · rw [transferProgram_negative hdim]
    exact hended (hst.trans (Sequencer.started_negative (by rwa [hw, hh])))
  have hw0 : 0 ≤ st.width.toInt := by rw [hw]; omega
  have hh0 : 0 ≤ st.height.toInt := by rw [hh]; omega
  by_cases hfits : s.params.rowBufMax < rowStrideOf h.width (bytesPerPixel h.bpp)
  · rw [transferProgram_tooLong hdim hfits]
    exact hended (hst.trans (Sequencer.started_tooLong hw0 hh0 (by rwa [hstride])))
  have hfits' : st.withStride.rowStride ≤ s.params.rowBufMax := by rw [hstride]; omega
  by_cases h8 : h.bpp = 8
  · rw [Sequencer.started_palette hw0 hh0 hfits' (hbpp.trans h8)] at hst
    have hheld' : s.st.Holds s.regs h := by
      rw [hst]
      exact { hheld with }
    have hstep : s.st.step = .seekPal := by rw [hst]
    by_cases hlen : (filePalette s.src.bytes h).length < 4 * paletteCount h.clrUsed
    · rw [transferProgram_shortPalette hdim hfits h8 hlen]
      exact (palette_issues_short hop hstep hheld'.clrUsed hlen).ends rfl rfl rfl
    · rw [transferProgram_indexed hdim hfits h8 hlen]
      exact indexed_ends hinv hop hstep hheld' h8 (Nat.not_lt.1 hlen)
  · rw [transferProgram_trueColor hdim hfits h8]
    rw [Sequencer.started_rows hw0 hh0 hfits' (by rwa [hbpp])] at hst
    exact heldRows_end hinv hop hst hheld rfl (columnColor_trueColor (by rwa [hst, Sequencer.entered_bpp, hheld.bpp]))

/-! ## The whole command -/

/-- The pseudocode of DECODE short of its RELEASE (R186). -/
def decodeBody (p : Params) (r : Regs) (S : List Byte) : List Event × CmdOutcome :=
  match (headerProgram p S).2 with
  | .error o => ((headerProgram p S).1, o)
  | .ok h => ((headerProgram p S).1 ++ (transferProgram p r S h).1, (transferProgram p r S h).2)

theorem decodeProgram_eq (p : Params) (r : Regs) (S : List Byte) :
    decodeProgram p r S = ((decodeBody p r S).1 ++ [.release], (decodeBody p r S).2) := by
  unfold decodeProgram decodeBody
  cases (headerProgram p S).2 <;> rfl

@[simp] theorem Sequencer.started_op (st : Sequencer) (p : Params) (r : Regs) : (st.started p r).op = st.op := by
  unfold Sequencer.started
  split
  · rfl
  split
  · rfl
  split
  · rfl
  · exact st.withStride.entered_op r

/-- DECODE from SEEK_FH to its RELEASE (R186). -/
theorem decode_ends (hinv : Invariant s) (hop : s.st.op = .decode) (hstep : s.st.step = .seekFH)
    (hdx : s.st.dx = s.regs.destX) (hdy : s.st.dy = s.regs.destY) :
    s.Ends (decodeBody s.params s.regs s.src.bytes).1 (decodeBody s.params s.regs s.src.bytes).2 := by
  have hne : s.st.op ≠ .none := by simp [hop]
  have hheader := headerProgram_run s.params s.src.bytes
  unfold decodeBody
  cases hr : (headerProgram s.params s.src.bytes).2 with rw [hr] at hheader
  | error o =>
    obtain ⟨st, hissues, hst, hrelease, ho⟩ := header_issues_failed hne hstep hheader
    exact hissues.ends hst hrelease ho
  | ok h =>
    obtain ⟨hissues, hnone⟩ := header_issues_passed hne hstep hheader
    rw [Sequencer.validated_decode (st := s.st.withHeader h) hnone hop] at hissues
    refine hissues.append_ends hinv (Sequencer.started_op ..) fun hinv' => ?_
    exact transfer_ends hinv' rfl (by simpa [State.withScratch, Sequencer.withHeader] using hne)
      ⟨rfl, rfl, rfl, rfl, rfl, rfl, hdx, hdy⟩ (Source.after_bytes ..)

end Sys2Proof.Machine

open Sys2Proof Sys2Proof.Machine

/-- Settles O53: the steps of DECODE issue the pseudocode's events up to its RELEASE, and the completion writes STATUS
alone. -/
theorem decodeRunsItsPseudocode : Obligations.DecodeRunsItsPseudocode := by
  unfold Obligations.DecodeRunsItsPseudocode
  intro s ev o hinv hidle hprog hcoop
  rw [decodeProgram_eq] at hprog
  obtain ⟨rfl, rfl⟩ := Prod.mk.inj hprog
  have hinv' : Invariant s.issueDecode := exec_keepsInv hinv .decode _ (exec_decode_idle hidle)
  obtain ⟨c, hrun, hop, hstep, ho⟩ := decode_ends hinv' rfl rfl rfl rfl hcoop.of_append
  have hdecode : c.1.op = .decode := hop
  refine ⟨_, _, exec_decode_idle hidle, run_completes hrun (by simp [hdecode]) hstep hcoop, rfl, ?_, rfl,
    run_completes_surface .., rfl, rfl⟩
  refine (completedRegs_statusOnly fun hinspect => ?_).trans ?_
  · exact nomatch hdecode.symm.trans hinspect.1
  · show ({ s.regs with status := Status.completed c.1.outcome } : Regs) = _
    rw [ho]
    rfl

end

section
/-! A DECODE writes whole rows (R187, R188, R233): what the trace holds of its pixels, carried through every step. -/

namespace Sys2Proof.Machine

open Sys2Proof

/-! ## The coordinates written, and the clip region -/

/-- The pixels in the trace since its first `base` events are those of `l`. -/
def State.HasWritten (base : Nat) (l : List (Int × Int)) (s : State) : Prop :=
  base ≤ s.trace.length ∧ writtenCoords (s.trace.drop base) = l

/-- What is kept of a running DECODE whose issue came after `base` events. -/
def WritesWholeRows (base : Nat) (s : State) : Prop := base ≤ s.trace.length ∧ DecodeWrote base s

/-- A row of the region comes after the rows before it (R187). -/
theorem regionRows_succ (st : Sequencer) (k : Nat) :
    regionRows st (k + 1) = regionRows st k ++ regionColumns st k st.loadW.toNat := by
  simp [regionRows, regionColumns, List.range_succ]

theorem regionColumns_zero (st : Sequencer) (row : Nat) : regionColumns st row 0 = [] := rfl

/-- A column of a row comes after the columns before it (R187). -/
theorem regionColumns_succ (st : Sequencer) (row n : Nat) :
    regionColumns st row (n + 1) = regionColumns st row n ++ [(st.dx.toInt + n, st.dy.toInt + row)] := by
  simp [regionColumns, List.range_succ]

section Rules

variable {base : Nat} {l : List (Int × Int)} {s t : State}

theorem State.HasWritten.event (h : s.HasWritten base l) {e : Event} (ht : t.trace = s.trace ++ [e]) :
    t.HasWritten base (l ++ writtenCoords [e]) := by
  obtain ⟨hbase, rfl⟩ := h
  refine ⟨by rw [ht, List.length_append]; omega, ?_⟩
  rw [ht, List.drop_append_of_le_length hbase, writtenCoords, List.filterMap_append]
  rfl

/-- A request writes no pixel. -/
theorem State.HasWritten.seekDone (h : s.HasWritten base l) (o : Nat) : (s.seekDone o).HasWritten base l := by
  simpa [writtenCoords] using h.event (t := s.seekDone o) rfl

theorem State.HasWritten.readDone (h : s.HasWritten base l) (n : Nat) (b : List Byte) :
    (s.readDone n b).HasWritten base l := by
  simpa [writtenCoords] using h.event (t := s.readDone n b) rfl

theorem State.HasWritten.pixelDone (h : s.HasWritten base l) (x y : Int) (c : Color16) :
    (s.pixelDone x y c).HasWritten base (l ++ [(x, y)]) :=
  h.event (e := .surfSet x y c) rfl

/-- A DECODE that fails after whole rows, none or fewer than the region has (R188). -/
theorem State.HasWritten.endFailed {k : Nat} (h : s.HasWritten base (regionRows s.st k))
    (hk : k = 0 ∨ (k : Int) < s.st.loadH) {o : CmdOutcome} (ho : o ≠ .ok) : WritesWholeRows base (s.endCommand o) :=
  ⟨h.1, fun hok => absurd hok ho, fun _ => ⟨k, h.2, hk⟩⟩

/-- A DECODE that succeeds with the whole region (R187). -/
theorem State.HasWritten.endOk (h : s.HasWritten base (regionRows s.st s.st.loadH.toNat)) :
    WritesWholeRows base (s.endCommand .ok) :=
  ⟨h.1, fun _ => h.2, fun hne => absurd rfl hne⟩

theorem WritesWholeRows.of_same (h : WritesWholeRows base s) (hst : t.st = s.st) (htrace : t.trace = s.trace) :
    WritesWholeRows base t := by
  unfold WritesWholeRows DecodeWrote at *
  rwa [hst, htrace]

/-! ## The ports -/

section Requests

variable {k : Nat} (hs : WritesWholeRows base s) (h : s.HasWritten base (regionRows s.st k))
  (hk : k = 0 ∨ (k : Int) < s.st.loadH)

include h hk in
theorem State.HasWritten.requestFailed (e : Event) (he : writtenCoords [e] = []) :
    WritesWholeRows base (s.requestFailed e) := by
  have hlog := h.event (t := s.useSrcDraw.log e) rfl
  rw [he, List.append_nil] at hlog
  exact hlog.endFailed hk nofun

include hs h hk

theorem srcSeek_writes {o : Nat} {f : State → StepResult}
    (hdone : (s.seekDone o).HasWritten base (regionRows s.st k) →
      EndsIn (WritesWholeRows base) (f (s.seekDone o))) : EndsIn (WritesWholeRows base) (srcSeek s o f) :=
  endsIn_srcSeek (hs.of_same rfl rfl) (h.requestFailed hk _ rfl) (hdone (h.seekDone o))

theorem srcRead_writes {n : Nat} {f : State → List Byte → StepResult}
    (hdone : ∀ b, (s.readDone n b).HasWritten base (regionRows s.st k) →
      EndsIn (WritesWholeRows base) (f (s.readDone n b) b)) : EndsIn (WritesWholeRows base) (srcRead s n f) :=
  endsIn_srcRead (hs.of_same rfl rfl) (h.requestFailed hk _ rfl) fun b _ => hdone b (h.readDone n b)

end Requests

/-! ## Before the rows -/

/-- Entering the row loop: an empty region is written whole (R185). -/
theorem enterRows_writes (h : s.HasWritten base []) : EndsIn (WritesWholeRows base) (enterRows s) := by
  obtain ⟨hempty, hk⟩ | ⟨-, hk⟩ := enterRows_cases s <;> rw [hk, endsIn_next]
  · refine State.HasWritten.endOk (s := s.clipped) ?_
    rw [Int.toNat_eq_zero.2 hempty]
    exact h
  · exact h

theorem startTransfer_writes (h : s.HasWritten base []) : EndsIn (WritesWholeRows base) (startTransfer s) :=
  endsIn_ite (fun _ => endsIn_next.2 (h.endFailed (k := 0) (.inl rfl) nofun)) fun _ =>
    endsIn_ite
      (fun _ => endsIn_next.2 (State.HasWritten.endFailed (s := s.latchStride) (k := 0) h (.inl rfl) nofun)) fun _ =>
      endsIn_ite (fun _ => endsIn_next.2 h) fun _ => enterRows_writes (s := s.latchStride) h

section Header

variable (hs : WritesWholeRows base s) (h : s.HasWritten base [])

include hs h

theorem stepSeekFH_writes : EndsIn (WritesWholeRows base) (stepSeekFH s) :=
  srcSeek_writes (k := 0) hs h (.inl rfl) fun h => endsIn_next.2 h

theorem stepReadFH_writes : EndsIn (WritesWholeRows base) (stepReadFH s) :=
  srcRead_writes (k := 0) hs h (.inl rfl) fun _ h =>
    endsIn_ite (fun _ => endsIn_next.2 (h.endFailed (k := 0) (.inl rfl) nofun)) fun _ =>
      endsIn_ite (fun _ => endsIn_next.2 (h.endFailed (k := 0) (.inl rfl) nofun)) fun _ => endsIn_next.2 h

theorem stepReadIH_writes (hop : s.st.op = .decode) : EndsIn (WritesWholeRows base) (stepReadIH s) := by
  refine srcRead_writes (k := 0) hs h (.inl rfl) fun ih h =>
    endsIn_ite (fun _ => endsIn_next.2 (h.endFailed (k := 0) (.inl rfl) nofun)) fun _ => ?_
  have hlatched : ((s.readDone infoHdrLen ih).latchInfoHeader ih).HasWritten base [] := h
  dsimp only
  split
  · exact endsIn_next.2 (hlatched.endFailed (k := 0) (.inl rfl) nofun)
  · exact endsIn_ite (fun hinspect => nomatch hop.symm.trans hinspect) fun _ => startTransfer_writes hlatched

theorem stepSeekPal_writes : EndsIn (WritesWholeRows base) (stepSeekPal s) :=
  srcSeek_writes (k := 0) hs h (.inl rfl) fun h => endsIn_next.2 h

theorem stepReadPal_writes : EndsIn (WritesWholeRows base) (stepReadPal s) :=
  srcRead_writes (k := 0) hs h (.inl rfl) fun _ h =>
    endsIn_ite (fun _ => endsIn_next.2 (h.endFailed (k := 0) (.inl rfl) nofun)) fun _ => enterRows_writes h

end Header

/-! ## The rows -/

/-- The end of a row: the next one, or the whole region (R179, R185). -/
theorem nextRow_writes (h : s.HasWritten base (regionRows s.st (s.st.row + 1))) (hrow : (s.st.row : Int) < s.st.loadH) :
    EndsIn (WritesWholeRows base) (nextRow s) := by
  obtain ⟨-, hk⟩ | ⟨hlast, hk⟩ := nextRow_cases s <;> rw [hk, endsIn_next]
  · exact h
  · refine State.HasWritten.endOk ?_
    rwa [show s.st.loadH.toNat = s.st.row + 1 by omega]

section Rows

variable (hs : WritesWholeRows base s) (hrow : (s.st.row : Int) < s.st.loadH)

include hs hrow

theorem stepRowSeek_writes (h : s.HasWritten base (regionRows s.st s.st.row)) :
    EndsIn (WritesWholeRows base) (stepRowSeek s) :=
  srcSeek_writes hs h (.inr hrow) fun h => endsIn_next.2 h

/-- A row without a column is written whole as soon as it is read (R180). -/
theorem stepRowRead_writes (h : s.HasWritten base (regionRows s.st s.st.row)) :
    EndsIn (WritesWholeRows base) (stepRowRead s) := by
  rw [stepRowRead_eq]
  refine srcRead_writes hs h (.inr hrow) fun rb h =>
    endsIn_ite (fun _ => endsIn_next.2 (h.endFailed (.inr hrow) nofun)) fun _ =>
      endsIn_ite (fun _ => endsIn_fault _) fun _ => endsIn_ite (fun hcol => ?_) fun _ => endsIn_next.2 ?_
  · refine nextRow_writes (s := (s.readDone _ rb).rowStored rb) ?_ hrow
    have hempty : ((s.readDone s.st.rowStride rb).rowStored rb).st.loadW.toNat = 0 := Int.toNat_eq_zero.2 hcol
    rw [regionRows_succ, hempty, regionColumns_zero, List.append_nil]
    exact h
  · exact ⟨h.1, h.2.trans (List.append_nil _).symm⟩

theorem stepPixel_writes (hstep : s.st.step = .pixel) (hcol : (s.st.col : Int) < s.st.loadW)
    (h : s.HasWritten base (regionRows s.st s.st.row ++ regionColumns s.st s.st.row s.st.col)) :
    EndsIn (WritesWholeRows base) (stepPixel s) := by
  have hpixel := h.pixelDone (s.st.dx.toInt + s.st.col) (s.st.dy.toInt + s.st.row) s.pixelColor
  rw [List.append_assoc, ← regionColumns_succ] at hpixel
  refine endsIn_withRowBuf <| endsIn_surfSet (hs.of_same rfl rfl) <|
    endsIn_ite (fun _ => endsIn_next.2 ⟨hpixel.1, ?_⟩) fun hlast => nextRow_writes ?_ hrow
  · simp only [DecodeWrote, State.pixelDone_st, hstep]
    exact hpixel.2
  · simp only [State.pixelDone_st] at hlast ⊢
    have hwidth : s.st.loadW.toNat = s.st.col + 1 := by omega
    rw [regionRows_succ, hwidth]
    exact hpixel

end Rows

/-! ## The end of the command -/

/-- RELEASE writes no pixel (R232). -/
theorem stepRelease_writes (hbase : base ≤ s.trace.length)
    (h : EndedDecodeWrote s.st (writtenCoords (s.trace.drop base))) :
    EndsIn (WritesWholeRows base) (stepRelease s) := by
  obtain ⟨hbase', hcoords⟩ := State.HasWritten.event (t := s.log .release) ⟨hbase, rfl⟩ rfl
  refine endsIn_next.2 ⟨hbase', ?_⟩
  show EndedDecodeWrote s.st (writtenCoords ((s.log .release).trace.drop base))
  rw [hcoords]
  simpa [writtenCoords] using h

theorem runningStep_writes (hinv : Invariant s) (hop : s.st.op = .decode) (hs : WritesWholeRows base s) :
    EndsIn (WritesWholeRows base) (runningStep s) := by
  have ⟨hbase, hwrote⟩ := hs
  have hrun := hinv.running (by simp [hop])
  unfold Sequencer.Running at hrun
  unfold DecodeWrote at hwrote
  unfold runningStep
  cases hstep : s.st.step with simp only [hstep] at hrun hwrote ⊢
  | seekFH => exact stepSeekFH_writes hs ⟨hbase, hwrote⟩
  | readFH => exact stepReadFH_writes hs ⟨hbase, hwrote⟩
  | readIH => exact stepReadIH_writes hs ⟨hbase, hwrote⟩ hop
  | seekPal => exact stepSeekPal_writes hs ⟨hbase, hwrote⟩
  | readPal => exact stepReadPal_writes hs ⟨hbase, hwrote⟩
  | rowSeek => exact stepRowSeek_writes hs hrun.row ⟨hbase, hwrote⟩
  | rowRead => exact stepRowRead_writes hs hrun.row ⟨hbase, hwrote⟩
  | pixel => exact stepPixel_writes hs hrun.1.row hstep hrun.2 ⟨hbase, hwrote⟩
  | release => exact stepRelease_writes hbase hwrote
  | complete =>
    refine endsIn_next.2 ⟨hbase, ?_⟩
    simp only [DecodeWrote, State.completeCommand_st, hstep]
    exact hwrote

/-! ## The host's turn -/

/-- While BUSY = 1 no action of the host reaches the sequencer (R47). -/
theorem hostStep_busy_keepsSt (hbusy : s.regs.status.busy = true) : EndsIn (fun t => t.st = s.st) (hostStep s) := by
  unfold hostStep
  split
  · exact endsIn_next.2 rfl
  · next a rest _ =>
    cases a with
    | read size off => exact endsIn_ite (fun _ => endsIn_next.2 rfl) fun _ => endsIn_refused _
    | write size off v =>
      refine endsIn_ite (fun _ => ?_) fun _ => endsIn_refused _
      rw [writeOffset_busy (s := { s with prog := rest }) hbusy]
      exact endsIn_next.2 rfl
    | wait => exact endsIn_ite (fun _ => endsIn_next.2 rfl) fun _ => endsIn_next.2 rfl
    | bindSource src => exact endsIn_next.2 rfl
    | bindSurface content plan => exact endsIn_next.2 rfl

theorem step_writes (hinv : Invariant s) (hop : s.st.op = .decode) (hreset : s.turn ≠ .reset)
    (hs : WritesWholeRows base s) : EndsIn (WritesWholeRows base) (step s) := by
  have hne : s.st.op ≠ .none := by simp [hop]
  cases hturn : s.turn with
  | host =>
    rw [step_host hturn]
    intro t ht
    exact hs.of_same (hostStep_busy_keepsSt (s := s.tick) (hinv.busy.2 hne) t ht) (hostStep_keepsTrace s.tick t ht)
  | block =>
    rw [step_block hturn, blockStep_running (s := s.tick) hne]
    exact runningStep_writes (s := s.tick) (hinv.of_same rfl rfl rfl rfl hinv.surface) hop (hs.of_same rfl rfl)
  | reset => exact absurd hturn hreset

end Rules

end Sys2Proof.Machine

open Sys2Proof Sys2Proof.Machine

/-- Settles O56: the issue has written nothing, and each step of the DECODE adds its pixel, if any, where the region's
rows have come to. -/
theorem decodeWritesWholeRows : Obligations.DecodeWritesWholeRows := by
  unfold Obligations.DecodeWritesWholeRows
  refine ⟨fun s t hidle h => ?_, fun base s t hinv hbase hop hreset hwrote h =>
    step_writes hinv hop hreset ⟨hbase, hwrote⟩ t h⟩
  obtain rfl : s.issueDecode = t := Host.Outcome.next.inj ((exec_decode_idle hidle).symm.trans h)
  show writtenCoords (s.trace.drop s.trace.length) = []
  rw [List.drop_length]
  rfl

end

section
/-! The events of a successful DECODE and INSPECT pseudocode (R191): the header's, the palette's and the rows', and how
many they are. -/

namespace Sys2Proof.Machine

open Sys2Proof

/-! ## The row loop -/

section Rows

variable {S : List Byte} {j : RowJob} {color : List Byte → Nat → Color16}

/-- A row loop that succeeds issues all its rows. -/
theorem rowsProgram_ok {left row : Nat} (h : (rowsProgram S j color left row).2 = .ok) :
    (rowsProgram S j color left row).1 = (List.range' row left).flatMap (j.rowEvents S color) := by
  induction left generalizing row with
  | zero => rfl
  | succ left ih =>
    by_cases hlen : (j.rowBytes S row).length < j.rowStride
    · rw [rowsProgram_truncated hlen] at h
      exact nomatch h
    · rw [rowsProgram_whole hlen] at h ⊢
      rw [List.range'_succ, List.flatMap_cons, ih h]

theorem rowEvents_length (row : Nat) : (j.rowEvents S color row).length = 2 + j.loadW := by
  simp [RowJob.rowEvents, RowJob.requests, rowPixels]
  omega

theorem flatMap_rowEvents_length (n : Nat) :
    ((List.range n).flatMap (j.rowEvents S color)).length = n * (2 + j.loadW) := by
  simp [List.length_flatMap, rowEvents_length]

end Rows

/-! ## The transfer -/

section Transfer

variable {p : Params} {r : Regs} {S : List Byte} {h : ImageHeader}

/-- The colour of a column of an image (R181, R182). -/
def headerColor (S : List Byte) (h : ImageHeader) : List Byte → Nat → Color16 :=
  if h.bpp = 8 then indexedPixel (paletteCount h.clrUsed) (filePalette S h) else trueColorPixel

/-- A transfer that succeeds issues the palette's events, of an 8-bit image, and all its rows. -/
theorem transferProgram_ok (hok : (transferProgram p r S h).2 = .ok) :
    (transferProgram p r S h).1 = (if h.bpp = 8 then paletteEvents S h else []) ++
      (List.range (headerRows r h)).flatMap ((headerJob r h).rowEvents S (headerColor S h)) := by
  rw [List.range_eq_range']
  by_cases hdim : h.width.toInt < 0 ∨ h.height.toInt < 0
  · rw [transferProgram_negative hdim] at hok
    exact nomatch hok
  by_cases hfits : p.rowBufMax < rowStrideOf h.width (bytesPerPixel h.bpp)
  · rw [transferProgram_tooLong hdim hfits] at hok
    exact nomatch hok
  by_cases h8 : h.bpp = 8
  · by_cases hlen : (filePalette S h).length < 4 * paletteCount h.clrUsed
    · rw [transferProgram_shortPalette hdim hfits h8 hlen] at hok
      exact nomatch hok
    · rw [transferProgram_indexed hdim hfits h8 hlen] at hok ⊢
      rw [if_pos h8, headerColor, if_pos h8, ← rowsProgram_ok hok]
  · rw [transferProgram_trueColor hdim hfits h8] at hok ⊢
    rw [if_neg h8, headerColor, if_neg h8, List.nil_append, rowsProgram_ok hok]

/-- A row of the clip region is a row of the image (R178). -/
theorem lt_height_of_lt_headerRows {row : Nat} (hrow : row < headerRows r h) : (row : Int) < h.height.toInt := by
  have hle := clipLength_le (r.clipCtrl.getLsbD 1) h.height r.maxH
  unfold headerRows at hrow
  omega

end Transfer

/-! ## The header -/

section Header

variable {p : Params} {r : Regs} {S : List Byte} {h : ImageHeader}

/-- A header that passes has been read whole, and has a depth that DECODE can transfer (R168). -/
theorem HeaderRun.of_ok {ev : List Event} (hrun : HeaderRun p S ev (.ok h)) :
    ev = headerEvents S ∧ (h.bpp = 8 ∨ h.bpp = 24) := by
  cases hrun with
  | passed hsig hfh hih hnone =>
    obtain ⟨k, hk, -⟩ | ⟨-, hbpp, -, -⟩ :=
      validateFormat_cases (fileHeader p S).bpp (fileHeader p S).comp (fileHeader p S).planes
    · exact nomatch hnone.symm.trans hk
    · exact ⟨rfl, hbpp⟩

theorem headerProgram_ok (hok : (headerProgram p S).2 = .ok h) :
    (headerProgram p S).1 = headerEvents S ∧ (h.bpp = 8 ∨ h.bpp = 24) :=
  HeaderRun.of_ok (hok ▸ headerProgram_run p S)

theorem decodeBody_of_header (hok : (headerProgram p S).2 = .ok h) :
    decodeBody p r S = (headerEvents S ++ (transferProgram p r S h).1, (transferProgram p r S h).2) := by
  unfold decodeBody
  rw [hok, (headerProgram_ok hok).1]

/-- The events of a DECODE that succeeds (R191). -/
theorem decodeProgram_ok (hheader : (headerProgram p S).2 = .ok h) (hok : (decodeProgram p r S).2 = .ok) :
    (decodeProgram p r S).1 = headerEvents S ++ (if h.bpp = 8 then paletteEvents S h else []) ++
      (List.range (headerRows r h)).flatMap ((headerJob r h).rowEvents S (headerColor S h)) ++ [.release] := by
  rw [decodeProgram_eq, decodeBody_of_header hheader] at hok ⊢
  rw [transferProgram_ok hok, ← List.append_assoc]

end Header

end Sys2Proof.Machine

open Sys2Proof Sys2Proof.Machine

/-- Settles O54: a success leaves the header's events, the palette's, and each row's, which are 2 requests and W
pixels. -/
theorem successfulTraceShape : Obligations.SuccessfulTraceShape := by
  unfold Obligations.SuccessfulTraceShape
  refine ⟨fun p r S h hheader hok => ?_, fun p S h hheader => ?_⟩
  · have hevents := decodeProgram_ok hheader hok
    have hlength : (decodeProgram p r S).1.length =
        4 + (if h.bpp = 8 then 2 else 0) + headerRows r h * (2 + (headerJob r h).loadW) := by
      rw [hevents]
      simp only [List.length_append, flatMap_rowEvents_length]
      split <;> simp [headerEvents, fileHeaderEvents, paletteEvents] <;> omega
    refine ⟨(headerJob r h).loadW, headerRows r h, paletteCount h.clrUsed, (headerJob r h).rowStride,
      (headerJob r h).offset, fun row => headerColor S h ((headerJob r h).rowBytes S row), rfl, rfl, rfl, ?_,
      fun row hrow => rowOffset_toInt _ _ (lt_height_of_lt_headerRows hrow), hevents, hlength⟩
    rw [headerJob, bytesPerPixel_eq (headerProgram_ok hheader).2]
  · rw [inspectProgram, (headerProgram_ok hheader).1]
    rfl

end

section
/-! No step faults (R245): the results that a step may have, with one rule per shared operation, and the events of a
running command and the host's accesses by these rules. -/

namespace Sys2Proof.Machine

open Sys2Proof

/-! ## The results a step may have -/

/-- The results that a step of a state of the invariant may have: a next state, or one of the two refusals, of a host
access outside the interface (R72) and of an over-long answer (R63). A fault is none of them. -/
inductive Permitted : StepResult → Prop
  | next (t : State) : Permitted (.next t)
  | hostAccess : Permitted (.refused .hostAccess)
  | overlongAnswer : Permitted (.refused .overlongAnswer)

section Rules

variable {s : State}

theorem Permitted.of_eq_next {r : StepResult} {t : State} (h : r = .next t) : Permitted r := h ▸ .next t

theorem Permitted.ite {c : Prop} [Decidable c] {a b : StepResult} (ha : Permitted a) (hb : Permitted b) :
    Permitted (if c then a else b) := by
  split
  · exact ha
  · exact hb

theorem srcSeek_permitted {o : Nat} {k : State → StepResult} (hdone : Permitted (k (s.seekDone o))) :
    Permitted (srcSeek s o k) := by
  obtain ⟨-, h⟩ | ⟨-, h⟩ | ⟨-, -, h⟩ := srcSeek_cases s o k
  · exact .of_eq_next h
  · exact .of_eq_next h
  · rwa [h]

/-- A READ goes on with at most `n` bytes, a longer answer being refused (R63). -/
theorem srcRead_permitted {n : Nat} {k : State → List Byte → StepResult}
    (hdone : ∀ b : List Byte, b.length ≤ n → Permitted (k (s.readDone n b) b)) : Permitted (srcRead s n k) := by
  obtain ⟨-, h⟩ | ⟨-, h⟩ | ⟨h, -⟩ | ⟨-, -, b, hb, -, h⟩ := srcRead_cases s n k
  · exact .of_eq_next h
  · exact .of_eq_next h
  · exact h ▸ .overlongAnswer
  · exact h ▸ hdone b hb

/-- A row that fits ROWBUF is stored without a fault (R42). -/
theorem writeRowBuf_permitted {b : List Byte} {k : State → StepResult} (hfits : b.length ≤ s.params.rowBufMax)
    (hk : Permitted (k { s with rowBuf := s.rowBuf.writeBytes 0 b })) : Permitted (writeRowBuf s b k) :=
  writeRowBuf_fits hfits k ▸ hk

end Rules

/-! ## The steps of a running command -/

section Running

variable {s : State}

theorem stepReadFH_permitted : Permitted (stepReadFH s) :=
  srcRead_permitted fun _ _ => .ite (.next _) (.ite (.next _) (.next _))

theorem stepReadIH_permitted : Permitted (stepReadIH s) :=
  srcRead_permitted fun _ _ => .ite (.next _) (.of_eq_next (validateHeader_validated _))

theorem stepReadPal_permitted : Permitted (stepReadPal s) :=
  srcRead_permitted fun _ _ => .ite (.next _) (.of_eq_next (enterRows_entered _))

/-- The row that is stored fits ROWBUF: its length was checked before the rows began (R174). -/
theorem stepRowRead_permitted (hrows : s.st.InRows s.params) : Permitted (stepRowRead s) :=
  srcRead_permitted fun _ hb => .ite (.next _) <| writeRowBuf_permitted (hb.trans hrows.fits) <|
    .ite (.of_eq_next (nextRow_afterRow _)) (.next _)

/-- The bytes of a pixel of the clip region lie within ROWBUF (R174, R181, R182). -/
theorem stepPixel_permitted (hrows : s.st.InRows s.params) (hcol : (s.st.col : Int) < s.st.loadW) :
    Permitted (stepPixel s) := by
  cases hdraw : s.surfDraw with
  | accepts => exact .of_eq_next (stepPixel_accepts hrows hcol hdraw)
  | silent => exact .of_eq_next (stepPixel_silent hrows hcol hdraw)

/-- By the event that comes next; only ROW_READ and PIXEL access ROWBUF, and only they need the invariant. -/
theorem runningStep_permitted (h : Invariant s) (hop : s.st.op ≠ .none) : Permitted (runningStep s) := by
  have hrun := h.running hop
  unfold Sequencer.Running at hrun
  unfold runningStep
  cases hstep : s.st.step with simp only [hstep] at hrun ⊢
  | seekFH | seekPal | rowSeek =>
    refine srcSeek_permitted ?_
    exact .next _
  | readFH => exact stepReadFH_permitted
  | readIH => exact stepReadIH_permitted
  | readPal => exact stepReadPal_permitted
  | rowRead => exact stepRowRead_permitted hrun
  | pixel => exact stepPixel_permitted hrun.1 hrun.2
  | release | complete => exact .next _

theorem blockStep_permitted (h : Invariant s) : Permitted (blockStep s) := by
  by_cases hop : s.st.op = .none
  · exact .of_eq_next (blockStep_idle hop)
  · rw [blockStep_running hop]
    exact runningStep_permitted h hop

end Running

/-! ## The host -/

section HostTurn

variable (s : State)

theorem writeCmd_permitted (w : Word) : Permitted (writeCmd s w) := by
  unfold writeCmd
  split
  · next i _ => cases i <;> exact .next _
  · exact .next _

theorem writeOffset_permitted (off : BitVec 8) (v : Word) : Permitted (writeOffset s off v) := by
  unfold writeOffset
  split
  · exact writeCmd_permitted s v
  · exact .next _
  · exact .next _

/-- A read or a write within the interface goes on, and any other is refused (R72). -/
theorem hostAct_permitted (a : HostAction) (rest : List HostAction) : Permitted (hostAct s a rest) := by
  cases a with
  | read size off => exact .ite (.next _) .hostAccess
  | write size off v => exact .ite (writeOffset_permitted _ off v) .hostAccess
  | wait => exact .ite (.next _) (.next _)
  | bindSource src => exact .next _
  | bindSurface content plan => exact .next _

theorem hostStep_permitted : Permitted (hostStep s) := by
  unfold hostStep
  split
  · exact .next _
  · exact hostAct_permitted s _ _

end HostTurn

theorem step_permitted {s : State} (h : Invariant s) : Permitted (step s) := by
  cases hturn : s.turn with
  | host => exact step_host hturn ▸ hostStep_permitted s.tick
  | block =>
    have htick : Invariant s.tick := h.of_same rfl rfl rfl rfl h.surface
    exact step_block hturn ▸ blockStep_permitted htick
  | reset => exact .of_eq_next (step_reset hturn)

end Sys2Proof.Machine

open Sys2Proof Sys2Proof.Machine

/-- Settles O5: by the agent whose turn it is, and for the block by the event that comes next; the latches of the row
loop keep every access to ROWBUF within its capacity. -/
theorem stepNeverFaults : Obligations.StepNeverFaults := by
  unfold Obligations.StepNeverFaults
  intro s hinv
  have hstep := step_permitted hinv
  generalize step s = r at hstep
  cases hstep with
  | next t => exact ⟨nofun, nofun⟩
  | hostAccess => exact ⟨nofun, fun r hr => .inl (Host.Outcome.refused.inj hr).symm⟩
  | overlongAnswer => exact ⟨nofun, fun r hr => .inr (Host.Outcome.refused.inj hr).symm⟩

end

section
/-! How a command ends: what an INSPECT that ended OK leaves open to a DECODE of the same source (R273), and the two
steps, RELEASE and the completion, that end every command (R231, R232). -/

namespace Sys2Proof.Machine

open Sys2Proof

/-! ## The outcomes of a transfer -/

section Transfer

variable (p : Params) (r : Regs) (S : List Byte)

/-- A row loop succeeds, or ends at the first row that the file does not have whole (R180, R185). -/
theorem rowsProgram_outcome (j : RowJob) (color : List Byte → Nat → Color16) (left row : Nat) :
    (rowsProgram S j color left row).2 = .ok ∨ (rowsProgram S j color left row).2 = .format .truncatedRow := by
  induction left generalizing row with
  | zero => exact .inl rfl
  | succ left ih =>
    by_cases hlen : (j.rowBytes S row).length < j.rowStride
    · rw [rowsProgram_truncated hlen]
      exact .inr rfl
    · rw [rowsProgram_whole hlen]
      exact ih (row + 1)

/-- The outcomes of a DECODE whose header has passed (R172 to R185). -/
def transferOutcomes : List CmdOutcome :=
  [.ok, .unsupported .negativeDimension, .unsupported .rowTooLong, .format .truncatedPalette, .format .truncatedRow]

theorem rowsProgram_outcome_mem (j : RowJob) (color : List Byte → Nat → Color16) (left row : Nat) :
    (rowsProgram S j color left row).2 ∈ transferOutcomes := by
  obtain h | h := rowsProgram_outcome S j color left row <;> simp [h, transferOutcomes]

/-- By the tests of the transfer, in their order. -/
theorem transferProgram_outcome_mem (h : ImageHeader) : (transferProgram p r S h).2 ∈ transferOutcomes := by
  by_cases hdim : h.width.toInt < 0 ∨ h.height.toInt < 0
  · simp [transferProgram_negative hdim, transferOutcomes]
  by_cases hfits : p.rowBufMax < rowStrideOf h.width (bytesPerPixel h.bpp)
  · simp [transferProgram_tooLong hdim hfits, transferOutcomes]
  by_cases h8 : h.bpp = 8
  · by_cases hlen : (filePalette S h).length < 4 * paletteCount h.clrUsed
    · simp [transferProgram_shortPalette hdim hfits h8 hlen, transferOutcomes]
    · rw [transferProgram_indexed hdim hfits h8 hlen]
      exact rowsProgram_outcome_mem ..
  · rw [transferProgram_trueColor hdim hfits h8]
    exact rowsProgram_outcome_mem ..

end Transfer

end Sys2Proof.Machine

open Sys2Proof Sys2Proof.Machine

/-- Settles O55: INSPECT and DECODE share the header's program, so the DECODE ends as its transfer does. -/
theorem inspectPrevalidates : Obligations.InspectPrevalidates := by
  unfold Obligations.InspectPrevalidates
  intro p r S h hinspect
  have hheader : (headerProgram p S).2 = .ok h := hinspect
  rw [decodeProgram_eq, decodeBody_of_header hheader]
  exact transferProgram_outcome_mem p r S h

/-- Settles O34: the three ends of a command are `endCommand`, and the two steps that follow are those of the places
RELEASE and completion; the completion writes STATUS, and the INFO registers where an INSPECT ended OK. -/
theorem releaseThenCompletion : Obligations.ReleaseThenCompletion := by
  unfold Obligations.ReleaseThenCompletion
  refine ⟨fun s k r => ⟨rfl, rfl, rfl⟩, fun s hop => ⟨fun hstep => ?_, fun hstep => ?_⟩⟩
  · rw [blockStep_running hop, runningStep_release hstep]
    rfl
  · rw [blockStep_running hop, runningStep_complete hstep, State.completeCommand]
    congr 2
    refine ite_congr rfl (fun hok => ?_) fun _ => rfl
    rw [Regs.withInfo, hok.2, inspectPalColors_eq]
    rfl

end

section
/-! A running command comes nearer its end (R276): how far the end is after each event, and that every answered step of
the block goes nearer to it. -/

namespace Sys2Proof.Machine

open Sys2Proof

/-! ## How far the end is -/

section Distance

variable (st : Sequencer) (p : Params) (r : Regs)

/-- The steps of `rows` rows, each of them its ROW_SEEK, its ROW_READ and its pixels, and of RELEASE and completion
(R276). -/
def Sequencer.rowsThenEnd (rows : Nat) : Nat := rows * (st.loadW.toNat + 2) + 2

/-- A row has ROW_SEEK, ROW_READ and its pixels. -/
theorem Sequencer.rowsThenEnd_succ (rows : Nat) :
    st.rowsThenEnd (rows + 1) = st.rowsThenEnd rows + (st.loadW.toNat + 2) := by
  unfold Sequencer.rowsThenEnd
  ring

theorem Sequencer.two_le_rowsThenEnd (rows : Nat) : 2 ≤ st.rowsThenEnd rows := Nat.le_add_left ..

theorem Sequencer.ended_stepsLeft (o : CmdOutcome) : (st.ended o).stepsLeft = 2 := rfl

/-- A clip length is a signed 32-bit value at most (R178). -/
theorem clipLength_toNat_lt (e : Bool) (image bound : Word) : (clipLength e image bound).toNat < 2 ^ 31 := by
  have hle := clipLength_le e image bound
  have himage := image.toInt_lt
  omega

/-- The whole clip region takes less than 2^64 steps. -/
theorem Sequencer.entered_stepsLeft_lt : (st.entered r).stepsLeft < 2 ^ 64 + 1 := by
  by_cases hempty : (st.clipped r).loadH ≤ 0
  · rw [Sequencer.entered_empty hempty, Sequencer.ended_stepsLeft]
    decide
  rw [Sequencer.entered_first (Int.not_le.1 hempty)]
  have hrows : ((st.clipped r).loadH - (0 : Nat)).toNat ≤ 2 ^ 31 := by
    rw [Nat.cast_zero, Int.sub_zero]
    exact (clipLength_toNat_lt ..).le
  have hcolumns : (st.clipped r).loadW.toNat + 2 ≤ 2 ^ 31 + 2 :=
    Nat.add_le_add_right (clipLength_toNat_lt ..).le 2
  calc ((st.clipped r).loadH - (0 : Nat)).toNat * ((st.clipped r).loadW.toNat + 2) + 2
      ≤ 2 ^ 31 * (2 ^ 31 + 2) + 2 := Nat.add_le_add_right (Nat.mul_le_mul hrows hcolumns) 2
    _ < 2 ^ 64 + 1 := by decide

theorem Sequencer.started_stepsLeft_lt : (st.started p r).stepsLeft < 2 ^ 64 + 3 := by
  unfold Sequencer.started
  split
  · rw [Sequencer.ended_stepsLeft]
    decide
  split
  · rw [Sequencer.ended_stepsLeft]
    decide
  split
  · show 2 ^ 64 + 2 < 2 ^ 64 + 3
    decide
  · exact (st.withStride.entered_stepsLeft_lt r).trans (by decide)

theorem Sequencer.validated_stepsLeft_lt : (st.validated p r).stepsLeft < 2 ^ 64 + 3 := by
  unfold Sequencer.validated
  split
  · rw [Sequencer.ended_stepsLeft]
    decide
  split
  · rw [Sequencer.ended_stepsLeft]
    decide
  · exact st.started_stepsLeft_lt p r

variable {st p}

/-- After a row the rows below it are left (R179, R185). -/
theorem Sequencer.afterRow_stepsLeft {rows : Nat} (hrows : st.loadH - st.row = (rows + 1 : Nat)) :
    st.afterRow.stepsLeft = st.rowsThenEnd rows := by
  by_cases hnext : (st.row : Int) + 1 < st.loadH
  · have hleft : (st.loadH - (st.row + 1 : Nat)).toNat = rows := by omega
    rw [Sequencer.afterRow, if_pos hnext, ← hleft]
    rfl
  · obtain rfl : rows = 0 := by omega
    rw [Sequencer.afterRow, if_neg hnext, Sequencer.rowsThenEnd, Nat.zero_mul]
    rfl

theorem Sequencer.InRows.exists_rowsLeft (h : st.InRows p) : ∃ rows : Nat, st.loadH - st.row = (rows + 1 : Nat) := by
  have hrow := h.row
  exact ⟨(st.loadH - st.row).toNat - 1, by omega⟩

theorem Sequencer.stepsLeft_rowSeek {rows : Nat} (hstep : st.step = .rowSeek)
    (hrows : st.loadH - st.row = (rows + 1 : Nat)) : st.stepsLeft = st.rowsThenEnd (rows + 1) := by
  simp only [Sequencer.stepsLeft, hstep, hrows, Int.toNat_natCast, Sequencer.rowsThenEnd]

theorem Sequencer.stepsLeft_rowRead {rows : Nat} (hstep : st.step = .rowRead)
    (hrows : st.loadH - st.row = (rows + 1 : Nat)) :
    st.stepsLeft = st.rowsThenEnd rows + (st.loadW.toNat + 1) := by
  simp only [Sequencer.stepsLeft, hstep, hrows, Int.toNat_natCast, Sequencer.rowsThenEnd]
  ring

theorem Sequencer.stepsLeft_pixel {rows : Nat} (hstep : st.step = .pixel)
    (hrows : st.loadH - st.row = (rows + 1 : Nat)) :
    st.stepsLeft = st.rowsThenEnd rows + (st.loadW.toNat - st.col) := by
  simp only [Sequencer.stepsLeft, hstep, hrows, Int.toNat_natCast, Sequencer.rowsThenEnd, Nat.add_sub_cancel]
  omega

end Distance

/-! ## Steps that go nearer the end -/

/-- The step ends less than `n` steps from the command's end, or is refused for an over-long answer (R63). -/
def Advances (n : Nat) (r : StepResult) : Prop :=
  r = .refused .overlongAnswer ∨ ∃ t, r = .next t ∧ t.variant < n

section Rules

variable {n : Nat} {s : State}

theorem State.variant_of_running (h : s.st.op ≠ .none) : s.variant = s.st.stepsLeft := by
  unfold State.variant
  cases hop : s.st.op with
  | none => exact absurd hop h
  | inspect | decode => rfl

theorem State.variant_of_idle (h : s.st.op = .none) : s.variant = 0 := by
  simp [State.variant, h]

theorem State.variant_le_stepsLeft (s : State) : s.variant ≤ s.st.stepsLeft := by
  by_cases h : s.st.op = .none
  · exact (State.variant_of_idle h).trans_le (Nat.zero_le _)
  · exact (State.variant_of_running h).le

theorem Advances.next (h : s.st.stepsLeft < n) : Advances n (.next s) :=
  .inr ⟨s, rfl, s.variant_le_stepsLeft.trans_lt h⟩

theorem Advances.of_eq_next {r : StepResult} (hr : r = .next s) (h : s.st.stepsLeft < n) : Advances n r :=
  hr ▸ .next h

/-- A command that ends has RELEASE and its completion before it (R17). -/
theorem Advances.endCommand (hn : 2 < n) (s : State) (o : CmdOutcome) : Advances n (.next (s.endCommand o)) :=
  .next hn

/-- The steps left are those of the event that comes next. -/
theorem Advances.of_step {q : SeqStep} {r : StepResult} (hstep : s.st.step = q)
    (h : Advances { s.st with step := q }.stepsLeft r) : Advances s.st.stepsLeft r := by
  subst hstep
  exact h

theorem Advances.ite {c : Prop} [Decidable c] {a b : StepResult} (ha : c → Advances n a) (hb : ¬c → Advances n b) :
    Advances n (if c then a else b) := by
  split
  · exact ha ‹_›
  · exact hb ‹_›

/-- A SEEK that is answered fails, or goes on (R62, R66). -/
theorem srcSeek_advances (hdraw : s.srcDraw ≠ .silent) (hn : 2 < n) {o : Nat} {k : State → StepResult}
    (hdone : Advances n (k (s.seekDone o))) : Advances n (srcSeek s o k) := by
  obtain ⟨hsilent, -⟩ | ⟨-, h⟩ | ⟨-, -, h⟩ := srcSeek_cases s o k
  · exact absurd hsilent hdraw
  · exact h ▸ .endCommand hn _ _
  · rwa [h]

/-- A READ that is answered fails, is refused, or goes on with at most `len` bytes (R63, R66). -/
theorem srcRead_advances (hdraw : s.srcDraw ≠ .silent) (hn : 2 < n) {len : Nat} {k : State → List Byte → StepResult}
    (hdone : ∀ b : List Byte, b.length ≤ len → Advances n (k (s.readDone len b) b)) :
    Advances n (srcRead s len k) := by
  obtain ⟨hsilent, -⟩ | ⟨-, h⟩ | ⟨h, -⟩ | ⟨-, -, b, hb, -, h⟩ := srcRead_cases s len k
  · exact absurd hsilent hdraw
  · exact h ▸ .endCommand hn _ _
  · exact .inl h
  · exact h ▸ hdone b hb

/-- A row that fits ROWBUF is stored, and the step goes on (R42). -/
theorem writeRowBuf_advances {b : List Byte} {k : State → StepResult} (hfits : b.length ≤ s.params.rowBufMax)
    (hk : Advances n (k { s with rowBuf := s.rowBuf.writeBytes 0 b })) : Advances n (writeRowBuf s b k) :=
  writeRowBuf_fits hfits k ▸ hk

end Rules

/-! ## The steps of a running command -/

section Running

variable {s : State}

theorem stepSeekFH_advances (hdraw : s.srcDraw ≠ .silent) : Advances (2 ^ 64 + 5) (stepSeekFH s) :=
  srcSeek_advances hdraw (by decide) (.next (Nat.lt_succ_self (2 ^ 64 + 4)))

theorem stepReadFH_advances (hdraw : s.srcDraw ≠ .silent) : Advances (2 ^ 64 + 4) (stepReadFH s) :=
  srcRead_advances hdraw (by decide) fun _ _ =>
    .ite (fun _ => .endCommand (by decide) _ _) fun _ => .ite (fun _ => .endCommand (by decide) _ _) fun _ =>
      .next (Nat.lt_succ_self (2 ^ 64 + 3))

theorem stepReadIH_advances (hdraw : s.srcDraw ≠ .silent) : Advances (2 ^ 64 + 3) (stepReadIH s) :=
  srcRead_advances hdraw (by decide) fun _ _ => .ite (fun _ => .endCommand (by decide) _ _) fun _ =>
    .of_eq_next (validateHeader_validated _) (Sequencer.validated_stepsLeft_lt ..)

theorem stepSeekPal_advances (hdraw : s.srcDraw ≠ .silent) : Advances (2 ^ 64 + 2) (stepSeekPal s) :=
  srcSeek_advances hdraw (by decide) (.next (Nat.lt_succ_self (2 ^ 64 + 1)))

theorem stepReadPal_advances (hdraw : s.srcDraw ≠ .silent) : Advances (2 ^ 64 + 1) (stepReadPal s) :=
  srcRead_advances hdraw (by decide) fun _ _ => .ite (fun _ => .endCommand (by decide) _ _) fun _ =>
    .of_eq_next (enterRows_entered _) (Sequencer.entered_stepsLeft_lt ..)

/-- ROW_SEEK is one of the steps of its row. -/
theorem stepRowSeek_advances (hdraw : s.srcDraw ≠ .silent) (hrows : s.st.InRows s.params)
    (hstep : s.st.step = .rowSeek) : Advances s.st.stepsLeft (stepRowSeek s) := by
  obtain ⟨rows, hleft⟩ := hrows.exists_rowsLeft
  have htwo := s.st.two_le_rowsThenEnd rows
  have hnext : { s.st with step := .rowRead }.stepsLeft = s.st.rowsThenEnd rows + (s.st.loadW.toNat + 1) :=
    Sequencer.stepsLeft_rowRead rfl hleft
  rw [Sequencer.stepsLeft_rowSeek hstep hleft, Sequencer.rowsThenEnd_succ]
  exact srcSeek_advances hdraw (by omega) (.next (hnext.trans_lt (by omega)))

/-- A stored row goes on to its pixels, or to the row after it (R179, R180). -/
theorem stepRowRead_advances (hdraw : s.srcDraw ≠ .silent) (hrows : s.st.InRows s.params)
    (hstep : s.st.step = .rowRead) : Advances s.st.stepsLeft (stepRowRead s) := by
  obtain ⟨rows, hleft⟩ := hrows.exists_rowsLeft
  have htwo := s.st.two_le_rowsThenEnd rows
  have hpixels : { s.st with col := 0, step := .pixel }.stepsLeft = s.st.rowsThenEnd rows + s.st.loadW.toNat :=
    Sequencer.stepsLeft_pixel rfl hleft
  have hempty : { s.st with col := 0 }.afterRow.stepsLeft = s.st.rowsThenEnd rows := Sequencer.afterRow_stepsLeft hleft
  rw [Sequencer.stepsLeft_rowRead hstep hleft]
  refine srcRead_advances hdraw (by omega) fun b hb => .ite (fun _ => .endCommand (by omega) _ _) fun _ => ?_
  refine writeRowBuf_advances (hb.trans hrows.fits) ?_
  exact .ite (fun _ => .of_eq_next (nextRow_afterRow _) (hempty.trans_lt (by omega))) fun _ =>
    .next (hpixels.trans_lt (by omega))

/-- An accepted pixel goes on to the next column, or to the row after it (R183). -/
theorem Sequencer.InRows.afterPixel_stepsLeft_lt {st : Sequencer} {p : Params} (hrows : st.InRows p)
    (hcol : (st.col : Int) < st.loadW) (hstep : st.step = .pixel) : st.afterPixel.stepsLeft < st.stepsLeft := by
  obtain ⟨rows, hleft⟩ := hrows.exists_rowsLeft
  rw [Sequencer.stepsLeft_pixel hstep hleft, Sequencer.afterPixel]
  split
  · have hnext : { st with col := st.col + 1 }.stepsLeft = st.rowsThenEnd rows + (st.loadW.toNat - (st.col + 1)) :=
      Sequencer.stepsLeft_pixel hstep hleft
    omega
  · rw [Sequencer.afterRow_stepsLeft hleft]
    omega

theorem stepPixel_advances (hdraw : s.surfDraw ≠ .silent) (hrows : s.st.InRows s.params)
    (hcol : (s.st.col : Int) < s.st.loadW) (hstep : s.st.step = .pixel) : Advances s.st.stepsLeft (stepPixel s) := by
  cases haccepts : s.surfDraw with
  | accepts => exact .of_eq_next (stepPixel_accepts hrows hcol haccepts) (hrows.afterPixel_stepsLeft_lt hcol hstep)
  | silent => exact absurd haccepts hdraw

theorem stepRelease_advances (s : State) : Advances 2 (stepRelease s) := .next (Nat.lt_succ_self 1)

/-- The completion leaves the block idle (R231). -/
theorem stepComplete_advances (s : State) : Advances 1 (stepComplete s) :=
  .inr ⟨_, rfl, Nat.lt_one_iff.2 (State.variant_of_idle rfl)⟩

theorem runningStep_advances (h : Invariant s) (hop : s.st.op ≠ .none) (hsrc : s.srcDraw ≠ .silent)
    (hsurf : s.surfDraw ≠ .silent) : Advances s.st.stepsLeft (runningStep s) := by
  have hrun := h.running hop
  unfold Sequencer.Running at hrun
  unfold runningStep
  cases hstep : s.st.step with simp only [hstep] at hrun ⊢
  | seekFH => exact .of_step hstep (stepSeekFH_advances hsrc)
  | readFH => exact .of_step hstep (stepReadFH_advances hsrc)
  | readIH => exact .of_step hstep (stepReadIH_advances hsrc)
  | seekPal => exact .of_step hstep (stepSeekPal_advances hsrc)
  | readPal => exact .of_step hstep (stepReadPal_advances hsrc)
  | rowSeek => exact stepRowSeek_advances hsrc hrun hstep
  | rowRead => exact stepRowRead_advances hsrc hrun hstep
  | pixel => exact stepPixel_advances hsurf hrun.1 hrun.2 hstep
  | release => exact .of_step hstep (stepRelease_advances s)
  | complete => exact .of_step hstep (stepComplete_advances s)

end Running

end Sys2Proof.Machine

open Sys2Proof Sys2Proof.Machine

/-- Settles O57: by the event that comes next. An answered request or pixel goes on to an event nearer the end, or ends
the command; the latches of the row loop bound the rows and the columns left. -/
theorem answeredStepsMakeProgress : Obligations.AnsweredStepsMakeProgress := by
  unfold Obligations.AnsweredStepsMakeProgress
  intro s hinv hop hsrc hsurf
  rw [blockStep_running hop, State.variant_of_running hop]
  exact runningStep_advances hinv hop hsrc hsurf

end

section
/-! The surface keeps the last pixel written to each coordinate (R278), whether it is given with a binding or written by
a running command; the ports are bound (R264, R265), a reset abandons the command (R261), and an ended run stays as it
is (R278). -/

namespace Sys2Proof.Machine

open Sys2Proof

/-! ## The surface's content -/

/-- A read of content given as a list of pixels gives the last pixel listed for the coordinate. -/
theorem surfaceRead_of (content : List SurfCell) (x y : Int) :
    surfaceRead (surfaceOf content) x y = (content.reverse.find? fun c => c.x = x ∧ c.y = y).map (·.color) := by
  induction content using List.reverseRecOn with
  | nil => rfl
  | append_singleton content c ih =>
    have hwrite : surfaceOf (content ++ [c]) = surfaceWrite (surfaceOf content) c := List.foldl_concat ..
    rw [hwrite, List.reverse_concat]
    by_cases hc : c.x = x ∧ c.y = y
    · obtain ⟨rfl, rfl⟩ := hc
      simp [surfaceRead_write_same]
    · rw [surfaceRead_write_other _ _ fun h => hc ⟨h.1.symm, h.2.symm⟩, ih, List.find?_cons_of_neg (by simpa using hc)]

/-- The step ends in a state with the surface of `s`. -/
abbrev KeepsSurf (s : State) (r : StepResult) : Prop := EndsIn (fun t => t.surf = s.surf) r

section Surface

variable {s : State}

theorem validateHeader_keepsSurf : KeepsSurf s (validateHeader s) := by
  rw [validateHeader_validated]
  exact endsIn_next.2 rfl

theorem enterRows_keepsSurf : KeepsSurf s (enterRows s) := endsIn_enterRows rfl fun _ => rfl

theorem nextRow_keepsSurf : KeepsSurf s (nextRow s) := endsIn_nextRow (fun _ => rfl) rfl

theorem stepReadFH_keepsSurf : KeepsSurf s (stepReadFH s) :=
  endsIn_srcRead rfl rfl fun _ _ => endsIn_ite (fun _ => endsIn_next.2 rfl) fun _ =>
    endsIn_ite (fun _ => endsIn_next.2 rfl) fun _ => endsIn_next.2 rfl

theorem stepReadIH_keepsSurf : KeepsSurf s (stepReadIH s) :=
  endsIn_srcRead rfl rfl fun _ _ => endsIn_ite (fun _ => endsIn_next.2 rfl) fun _ => validateHeader_keepsSurf

theorem stepReadPal_keepsSurf : KeepsSurf s (stepReadPal s) :=
  endsIn_srcRead rfl rfl fun _ _ => endsIn_ite (fun _ => endsIn_next.2 rfl) fun _ => enterRows_keepsSurf

theorem stepRowRead_keepsSurf : KeepsSurf s (stepRowRead s) :=
  endsIn_srcRead rfl rfl fun _ _ => endsIn_ite (fun _ => endsIn_next.2 rfl) fun _ => endsIn_writeRowBuf fun _ =>
    endsIn_ite (fun _ => nextRow_keepsSurf) fun _ => endsIn_next.2 rfl

/-- Only PIXEL reaches the surface port. -/
theorem runningStep_keepsSurf (h : s.st.step ≠ .pixel) : KeepsSurf s (runningStep s) := by
  unfold runningStep
  split
  · exact endsIn_srcSeek rfl rfl (endsIn_next.2 rfl)
  · exact stepReadFH_keepsSurf
  · exact stepReadIH_keepsSurf
  · exact endsIn_srcSeek rfl rfl (endsIn_next.2 rfl)
  · exact stepReadPal_keepsSurf
  · exact endsIn_srcSeek rfl rfl (endsIn_next.2 rfl)
  · exact stepRowRead_keepsSurf
  · contradiction
  · exact endsIn_next.2 rfl
  · exact endsIn_next.2 rfl

theorem exec_keepsSurf (i : Instr) : KeepsSurf s (exec i s) := by
  cases i <;> exact endsIn_accept (fun _ => rfl) fun _ => rfl

theorem writeCmd_keepsSurf (w : Word) : KeepsSurf s (writeCmd s w) := by
  unfold writeCmd
  split
  · exact exec_keepsSurf _
  · exact endsIn_accept (fun _ => rfl) fun _ => rfl

@[simp] theorem State.storeReg_surf (s : State) (g : HostReg) (v : Word) : (s.storeReg g v).surf = s.surf := by
  unfold State.storeReg
  split <;> rfl

theorem writeOffset_keepsSurf (off : BitVec 8) (v : Word) : KeepsSurf s (writeOffset s off v) := by
  unfold writeOffset
  split
  · exact writeCmd_keepsSurf v
  · exact endsIn_next.2 (s.storeReg_surf _ v)
  · exact endsIn_next.2 rfl

/-- Of the host's actions only the binding of a surface reaches it (R264). -/
theorem hostStep_keepsSurf (h : ∀ content plan, s.prog.head? ≠ some (.bindSurface content plan)) :
    KeepsSurf s (hostStep s) := by
  unfold hostStep
  split
  · exact endsIn_next.2 rfl
  · next a rest hprog =>
    cases a with
    | read size off => exact endsIn_ite (fun _ => endsIn_next.2 rfl) fun _ => endsIn_refused _
    | write size off v =>
      exact endsIn_ite (fun _ => writeOffset_keepsSurf (s := { s with prog := rest }) off v) fun _ => endsIn_refused _
    | wait => exact endsIn_ite (fun _ => endsIn_next.2 rfl) fun _ => endsIn_next.2 rfl
    | bindSource src => exact endsIn_next.2 rfl
    | bindSurface content plan => exact absurd (congrArg List.head? hprog) (h content plan)

/-! ## A pixel in the trace -/

/-- A step that issues a pixel write is the PIXEL of a running command (R68). -/
theorem StepTrace.at_pixel {x y : Int} {c : Color16} (h : StepTrace s (s.trace ++ [.surfSet x y c])) :
    s.turn = .block ∧ s.st.op ≠ .none ∧ s.st.step = .pixel := by
  generalize hl : s.trace ++ [Event.surfSet x y c] = l at h
  cases h with
  | kept => simp at hl
  | request hturn hop he =>
    obtain rfl : Event.surfSet x y c = _ := by simpa using hl
    exact nomatch blockStep_isRequest hop he
  | pixel hturn hop hstep => exact ⟨hturn, hop, hstep⟩
  | release => simp at hl

/-- The block's turn at a pixel (R68, R181 to R183): it waits, or the pixel is written and is the event issued. -/
theorem step_pixel_cases (hinv : Invariant s) (hturn : s.turn = .block) (hop : s.st.op ≠ .none)
    (hstep : s.st.step = .pixel) {t : State} (h : step s = .next t) :
    (t.trace = s.trace ∧ t.surf.cells = s.surf.cells) ∨
    ∃ x y c, t.trace = s.trace ++ [.surfSet x y c] ∧ t.surf.cells = surfaceWrite s.surf.cells ⟨x, y, c⟩ := by
  obtain ⟨hrows, hcol⟩ := hinv.pixel hop hstep
  rw [step_block hturn, blockStep_running (s := s.tick) hop, runningStep_pixel (s := s.tick) hstep] at h
  cases hdraw : s.tick.surfDraw with
  | silent =>
    rw [stepPixel_silent (s := s.tick) hrows hcol hdraw] at h
    cases h
    exact .inl ⟨rfl, rfl⟩
  | accepts =>
    rw [stepPixel_accepts (s := s.tick) hrows hcol hdraw] at h
    cases h
    exact .inr ⟨_, _, _, rfl, rfl⟩

/-- A pixel in the trace is a pixel in the surface (R278). -/
theorem step_writesPixel (hinv : Invariant s) {t : State} (h : step s = .next t) {x y : Int} {c : Color16}
    (htrace : t.trace = s.trace ++ [.surfSet x y c]) : t.surf.cells = surfaceWrite s.surf.cells ⟨x, y, c⟩ := by
  obtain ⟨hturn, hop, hstep⟩ := StepTrace.at_pixel (htrace ▸ step_stepTrace h)
  obtain ⟨hkept, -⟩ | ⟨x', y', c', htrace', hcells⟩ := step_pixel_cases hinv hturn hop hstep h
  · simp [hkept] at htrace
  · obtain ⟨rfl, rfl, rfl⟩ : x' = x ∧ y' = y ∧ c' = c := by simpa [htrace'] using htrace
    exact hcells

/-- A step that neither writes a pixel nor binds a surface leaves the surface's content, whoever moves. -/
theorem step_keepsCells (hinv : Invariant s) {t : State} (h : step s = .next t)
    (htrace : ∀ x y c, t.trace ≠ s.trace ++ [.surfSet x y c])
    (hbind : ∀ content plan, s.prog.head? ≠ some (.bindSurface content plan)) : t.surf.cells = s.surf.cells := by
  cases hturn : s.turn with
  | host =>
    rw [step_host hturn] at h
    exact congrArg Surface.cells (hostStep_keepsSurf (s := s.tick) hbind t h)
  | reset =>
    rw [step_reset hturn] at h
    cases h
    rfl
  | block =>
    by_cases hop : s.st.op = .none
    · rw [step_block hturn, blockStep_idle (s := s.tick) hop] at h
      cases h
      rfl
    by_cases hstep : s.st.step = .pixel
    · obtain ⟨-, hcells⟩ | ⟨x, y, c, htrace', -⟩ := step_pixel_cases hinv hturn hop hstep h
      · exact hcells
      · exact absurd htrace' (htrace x y c)
    · rw [step_block hturn, blockStep_running (s := s.tick) hop] at h
      exact congrArg Surface.cells (runningStep_keepsSurf (s := s.tick) hstep t h)

end Surface

/-! ## The end of a run -/

/-- The turn of the host and the turn of the block leave an ended run as it is (R278). -/
theorem State.Ended.step_eq {s : State} (h : s.Ended) (hreset : s.turn ≠ .reset) : step s = .next s.tick := by
  obtain ⟨hprog, hop⟩ := h
  cases hturn : s.turn with
  | host =>
    rw [step_host hturn, hostStep, State.tick_prog, hprog]
  | block => rw [step_block hturn, blockStep_idle (s := s.tick) hop]
  | reset => exact absurd hturn hreset

end Sys2Proof.Machine

open Sys2Proof Sys2Proof.Machine

/-- Settles O18: the binding is the host's turn itself, and the content is written pixel by pixel in the order given. -/
theorem hostBindsThePorts : Obligations.HostBindsThePorts := by
  unfold Obligations.HostBindsThePorts
  intro s rest hturn
  refine ⟨fun src hprog => ?_, fun content plan hprog =>
    ⟨surfaceOf content, ?_, surfaceWf_of content, surfaceRead_of content⟩⟩
  · simp [hturn, hostStep, hprog, hostAct]
  · simp [hturn, hostStep, hprog, hostAct]

/-- Settles O51: a step that issues a pixel write is an accepted PIXEL, which the laws of `surfaceWrite` describe, and
no other step but a binding reaches the surface's content. -/
theorem surfaceKeepsTheLastWrite : Obligations.SurfaceKeepsTheLastWrite := by
  unfold Obligations.SurfaceKeepsTheLastWrite
  intro s t hinv h
  refine ⟨fun x y c htrace => ?_, step_keepsCells hinv h⟩
  rw [step_writesPixel hinv h htrace]
  exact ⟨surfaceRead_write_same _ ⟨x, y, c⟩, fun x' y' hother => surfaceRead_write_other _ ⟨x, y, c⟩ hother⟩

/-- Settles O58: an ended run's step only counts itself. -/
theorem endedRunsAreFinal : Obligations.EndedRunsAreFinal :=
  fun s hended hreset => ⟨s.tick, hended.step_eq hreset, hended, rfl⟩

/-- Settles O2: a reset writes the block alone, and the block it leaves is idle. -/
theorem resetAbandonsTheCommand : Obligations.ResetAbandonsTheCommand := by
  unfold Obligations.ResetAbandonsTheCommand
  intro s hturn
  exact ⟨s.tick.resetBlock, step_reset hturn, rfl, rfl, rfl, rfl, rfl, rfl, Regs.readOffset_reset 0x04, rfl,
    blockStep_idle rfl⟩

end
